-- ==== Sys2Proof/Word.lean ====
section
/-! DEFINITION. The data types of 00_scope.md R8 and R13: Byte, Word, Block, the 4x4 byte matrix the spec calls State, and the round-key store. -/

namespace Sys2Proof

/-- A Byte: 8 bits, unsigned (R8, R90). -/
abbrev Byte := BitVec 8

/-- A 32-bit register value, or a key-schedule Word in its register form, first byte in bits 31:24 (R8, R55). -/
abbrev Word := BitVec 32

/-- A Block, or a Key: 16 Bytes, byte 0 first (R8, R13). -/
abbrev Block := Vector Byte 16

/-- Four 32-bit registers holding one 16-byte value: KEY, DIN or DOUT (R22-R24, R54). -/
abbrev Quad := Vector Word 4

/-- The 4x4 Byte matrix the spec calls State, as its four rows: `m[r][c]` is row `r`, column `c` (R13, R30). -/
abbrev Mat := Vector (Vector Byte 4) 4

/-- A round-key schedule: round keys 0..10, 11 matrices (R8, R31). -/
abbrev RoundKeys := Vector Mat 11

/-- The matrix with entry `f r c` in row `r`, column `c`. -/
def Mat.build (f : Fin 4 → Fin 4 → Byte) : Mat := Vector.ofFn fun r => Vector.ofFn fun c => f r c

/-- The entry in row `r`, column `c` (R13: "row then column"). -/
def Mat.at (m : Mat) (r c : Fin 4) : Byte := m[r][c]

/-- The matrix of sixteen 0x00 Bytes. -/
def Mat.zero : Mat := Mat.build fun _ _ => 0

end Sys2Proof
end

