-- ==== Sys2Proof/Config.lean ====
section
/-! DEFINITION. The parameters of 00_scope.md R9 and R10. The open ones are constants without a body: no proof can see their value. -/

namespace Sys2Proof.Config

/-- The size of the register window in bytes (R9, R50). -/
def windowBytes : Nat := 0x200

/-- Which multiple of 0x200 the platform chose for `AES_BASE` (R10). Log entry 9. -/
opaque aesBaseIndex : Nat

/-- `AES_BASE`, the base address of the register window, "a multiple of 0x200" (R10). -/
def aesBase : Nat := windowBytes * aesBaseIndex

/-- The cycles from accept to completion of an opcode beyond the one that is always there. Log entry 10. -/
opaque latBeyondOne : Byte → Nat

/-- `LAT(op)`, with `LAT(op) >= 1`, a function of the opcode alone (R10, R231). No rule reads it. -/
def lat (opc : Byte) : Nat := latBeyondOne opc + 1

/-- The polarity of the reset input (R10). -/
inductive Polarity where
  | activeHigh | activeLow
  deriving DecidableEq, Repr, Inhabited

/-- How the reset input is synchronised (R10). -/
inductive Synchronisation where
  | synchronous | asynchronous
  deriving DecidableEq, Repr, Inhabited

/-- `RESET_PIN`: the polarity and synchronisation of the reset input (R10). No rule reads it. Log entry 10. -/
opaque resetPin : Polarity × Synchronisation

/-- `BUS_PROTOCOL`: which pin-level bus protocol and handshake, as a number (R10). No rule reads it. Log entry 10. -/
opaque busProtocol : Nat

end Sys2Proof.Config
end

