-- ==== Sys2Proof/Syntax.lean ====
section
/-! DEFINITION. The commands (30_encoding.md R74), the registers of the window (20_memory.md R51), the error codes (60_exceptions.md R191) and the turns of the three agents (00_scope.md R19). -/

namespace Sys2Proof

/-- The 20 commands, one constructor per row of the opcode table (R74). Only RCON and ARK carry IDX (R72, R75);
for every other command the word's IDX field is 0 (R76). -/
inductive Instr where
  | gfadd | gfxt | gfmul
  | sbox | isbox | rotw | subw
  | rcon (i : BitVec 4)
  | ldst | stst | subb | isubb | shr | ishr | mixc | imixc
  | ark (k : BitVec 4)
  | keyexp
  | enc | dec
  deriving DecidableEq, Repr

/-- The host-visible registers and views of the window (R51). -/
inductive RegName where
  | key (n : Fin 4)
  | din (n : Fin 4)
  | dout (n : Fin 4)
  | opa | opb | res
  | cmd | status
  | rkw (i : Fin 44)
  deriving DecidableEq, Repr

/-- The error names of R191. Code 0 (NONE) is the absence of a recorded error, and codes 8-15 are never produced. -/
inductive ErrName where
  | illegalOpcode | reservedField | indexRange | invalidByteValue | keyNotValid | busy | badAccess
  deriving DecidableEq, Repr

/-- The ERRCODE value of an error (R191). -/
def ErrName.code : ErrName → BitVec 4
  | .illegalOpcode => 1
  | .reservedField => 2
  | .indexRange => 3
  | .invalidByteValue => 4
  | .keyNotValid => 5
  | .busy => 6
  | .badAccess => 7

/-- One host bus access of `n` bytes at byte offset `off` of the window (R14, R57). An offset has 9 bits, since the
window has 0x200 bytes (R50). Log entry 3. -/
inductive Access where
  | read (off : BitVec 9) (n : Nat)
  | write (off : BitVec 9) (n : Nat) (v : Word)
  deriving DecidableEq, Repr

/-- Who takes the next step (R19): the host by one access, the core by its completion step, or the reset input. -/
inductive Turn where
  | host (a : Access)
  | core
  | reset
  deriving DecidableEq, Repr

/-- The two bus responses (R62). -/
inductive RespKind where
  | okay | error
  deriving DecidableEq, Repr

/-- The one response to an access (R62), with the data of a read. -/
structure BusResp where
  kind : RespKind
  data : Option Word
  deriving DecidableEq, Repr

/-- A statement of a host program (R82). A label is held as the index of the statement it names. `bnz` is the host's
own branch. Log entry 13. -/
inductive HostStmt where
  | wr (name : RegName) (imm : Word)
  | rd (name : RegName)
  | bnz (name : RegName) (mask : Word) (target : Nat)
  deriving DecidableEq, Repr

end Sys2Proof
end

