-- ==== Sys2Proof/WellFormed.lean ====
section
/-! DEFINITION. Which commands and host statements are well formed: the index ranges of 30_encoding.md R75, and the branch targets of R82. -/

namespace Sys2Proof

/-- "ARK (0x38) takes IDX in 0..10" and "RCON (0x24) takes IDX in 0..9" (R75). Every other command is well formed. -/
def Instr.wf : Instr → Bool
  | .rcon i => decide (i.toNat ≤ 9)
  | .ark k => decide (k.toNat ≤ 10)
  | .gfadd | .gfxt | .gfmul | .sbox | .isbox | .rotw | .subw => true
  | .ldst | .stst | .subb | .isubb | .shr | .ishr | .mixc | .imixc => true
  | .keyexp | .enc | .dec => true

/-- A `bnz` names a label of its program, or the place just after its last statement (R82). -/
def HostStmt.wf (length : Nat) : HostStmt → Bool
  | .wr _ _ => true
  | .rd _ => true
  | .bnz _ _ target => decide (target ≤ length)

end Sys2Proof
end

