-- ==== Sys2Proof/Decode.lean ====
section
/-! DEFINITION. The command encoding of 30_encoding.md R70-R84: the decoder, total on all 2^32 words, rejecting by the error names of 60_exceptions.md R197; the encoder; and the offsets of the register map (20_memory.md R51). -/

namespace Sys2Proof

/-- OPC of a command (the opcode map of R74). -/
def Instr.opc : Instr → Byte
  | .gfadd => 0x10
  | .gfxt => 0x11
  | .gfmul => 0x12
  | .sbox => 0x20
  | .isbox => 0x21
  | .rotw => 0x22
  | .subw => 0x23
  | .rcon _ => 0x24
  | .ldst => 0x30
  | .stst => 0x31
  | .subb => 0x32
  | .isubb => 0x33
  | .shr => 0x34
  | .ishr => 0x35
  | .mixc => 0x36
  | .imixc => 0x37
  | .ark _ => 0x38
  | .keyexp => 0x40
  | .enc => 0x50
  | .dec => 0x51

/-- IDX of a command: ARK's round-key number, RCON's round-constant number, 0 for every other (R72, R76). -/
def Instr.idx : Instr → BitVec 4
  | .rcon i => i
  | .ark k => k
  | .gfadd | .gfxt | .gfmul | .sbox | .isbox | .rotw | .subw => 0
  | .ldst | .stst | .subb | .isubb | .shr | .ishr | .mixc | .imixc => 0
  | .keyexp | .enc | .dec => 0

/-- OPC = CMD[7:0] (R70). -/
def opcField (w : Word) : Byte := w.extractLsb' 0 8

/-- IDX = CMD[11:8] (R70). -/
def idxField (w : Word) : BitVec 4 := w.extractLsb' 8 4

/-- RSV = CMD[31:12] (R70). -/
def rsvField (w : Word) : BitVec 20 := w.extractLsb' 12 20

/-- The command an assigned opcode selects, given the IDX field (R71, R74). An opcode outside the table is unassigned
(R77). The IDX of a command without an index is checked by `decodeCommand`. -/
def commandOf (opc : Byte) (idx : BitVec 4) : Option Instr :=
  match opc.toNat with
  | 0x10 => some .gfadd
  | 0x11 => some .gfxt
  | 0x12 => some .gfmul
  | 0x20 => some .sbox
  | 0x21 => some .isbox
  | 0x22 => some .rotw
  | 0x23 => some .subw
  | 0x24 => some (.rcon idx)
  | 0x30 => some .ldst
  | 0x31 => some .stst
  | 0x32 => some .subb
  | 0x33 => some .isubb
  | 0x34 => some .shr
  | 0x35 => some .ishr
  | 0x36 => some .mixc
  | 0x37 => some .imixc
  | 0x38 => some (.ark idx)
  | 0x40 => some .keyexp
  | 0x50 => some .enc
  | 0x51 => some .dec
  | _ => none

/-- Checks 1 to 3 of R197, in its order: the opcode is assigned (R77), RSV is 0 (R73) and IDX is 0 for a command without
an index (R76), and an index is in range (R75). The checks that read the state, 4 and 5, are the meanings'. -/
def decodeCommand (w : Word) : Except ErrName Instr :=
  match commandOf (opcField w) (idxField w) with
  | none => .error .illegalOpcode
  | some i =>
    if rsvField w ≠ 0 then .error .reservedField
    else if i.idx ≠ idxField w then .error .reservedField
    else if i.wf then .ok i
    else .error .indexRange

/-- The word of a command: "Its encoding is `OPC | (IDX << 8)`", with CMD[31:12] = 0 (R74). -/
def encode (i : Instr) : Word := i.opc.setWidth 32 ||| (i.idx.setWidth 32 <<< 8)

/-- The instruction the decoder reads from a table word. A command is one 32-bit word and nothing longer (R70, R84). -/
def decodeTableWord (_nbits w : Nat) : Option Instr :=
  if w < 2 ^ 32 then
    match decodeCommand (BitVec.ofNat 32 w) with
    | .ok i => some i
    | .error _ => none
  else none

/-- The byte offset of a register (the address map of R51). -/
def RegName.offset : RegName → BitVec 9
  | .key n => BitVec.ofNat 9 (0x000 + 4 * n.val)
  | .din n => BitVec.ofNat 9 (0x010 + 4 * n.val)
  | .dout n => BitVec.ofNat 9 (0x020 + 4 * n.val)
  | .opa => 0x030
  | .opb => 0x034
  | .res => 0x038
  | .cmd => 0x040
  | .status => 0x044
  | .rkw i => BitVec.ofNat 9 (0x100 + 4 * i.val)

/-- The register mapped at an offset, if any (R51). Every other offset is unmapped, and so is every offset that is not
a multiple of 4 (R52). -/
def regAt (off : BitVec 9) : Option RegName :=
  let o := off.toNat
  if o % 4 ≠ 0 then none
  else if o < 0x010 then some (.key (Fin.ofNat 4 (o / 4)))
  else if o < 0x020 then some (.din (Fin.ofNat 4 ((o - 0x010) / 4)))
  else if o < 0x030 then some (.dout (Fin.ofNat 4 ((o - 0x020) / 4)))
  else if o = 0x030 then some .opa
  else if o = 0x034 then some .opb
  else if o = 0x038 then some .res
  else if o = 0x040 then some .cmd
  else if o = 0x044 then some .status
  else if 0x100 ≤ o ∧ o < 0x1B0 then some (.rkw (Fin.ofNat 44 ((o - 0x100) / 4)))
  else none

/-- The upper-case mnemonic of a command (R74, R81). -/
def Instr.mnemonic : Instr → String
  | .gfadd => "GFADD"
  | .gfxt => "GFXT"
  | .gfmul => "GFMUL"
  | .sbox => "SBOX"
  | .isbox => "ISBOX"
  | .rotw => "ROTW"
  | .subw => "SUBW"
  | .rcon _ => "RCON"
  | .ldst => "LDST"
  | .stst => "STST"
  | .subb => "SUBB"
  | .isubb => "ISUBB"
  | .shr => "SHR"
  | .ishr => "ISHR"
  | .mixc => "MIXC"
  | .imixc => "IMIXC"
  | .ark _ => "ARK"
  | .keyexp => "KEYEXP"
  | .enc => "ENC"
  | .dec => "DEC"

/-- The decimal spelling of a number below 100, enough for an index of 4 bits and for a register number. -/
def decimal (n : Nat) : String :=
  let digits := ["0", "1", "2", "3", "4", "5", "6", "7", "8", "9"]
  if n < 10 then digits.getD n "" else digits.getD (n / 10) "" ++ digits.getD (n % 10) ""

/-- The spelling of a command: its mnemonic, and for ARK and RCON "their index as a decimal operand" (R81). -/
def Instr.spelling : Instr → String
  | .rcon i => "RCON " ++ decimal i.toNat
  | .ark k => "ARK " ++ decimal k.toNat
  | i => i.mnemonic

/-- The name of a register in a host program (R82). -/
def RegName.spelling : RegName → String
  | .key n => "KEY" ++ decimal n.val
  | .din n => "DIN" ++ decimal n.val
  | .dout n => "DOUT" ++ decimal n.val
  | .opa => "OPA"
  | .opb => "OPB"
  | .res => "RES"
  | .cmd => "CMD"
  | .status => "STATUS"
  | .rkw i => "RKW" ++ decimal i.val

end Sys2Proof
end

