-- ==== Sys2Proof/Machine/State.lean ====
section
/-! DEFINITION. The state of the core: the tuple of 10_state.md R20 and nothing else, beside two fields of the model's own; its reset values (R41); and the reasons a step can stop. -/

namespace Sys2Proof.Machine

/-- The state of the core (R20), and the two fields the model adds: `inputs` and `resp`. -/
structure State where
  /-- KEY[0..3], the 16-byte Key (R22). -/
  key : Quad
  /-- DIN[0..3], the input block (R23). -/
  din : Quad
  /-- DOUT[0..3], the output block, read-only to the host (R24). -/
  dout : Quad
  /-- OPA, the first operand of the scalar commands (R25). -/
  opa : Word
  /-- OPB, the second byte operand (R26). -/
  opb : Word
  /-- RES, the result of the last completed scalar command, read-only to the host (R27). -/
  res : Word
  /-- STATUS.BUSY (R34). -/
  busy : Bool
  /-- STATUS.DONE (R35). -/
  done : Bool
  /-- STATUS.KEY_VALID (R33). -/
  keyValid : Bool
  /-- STATUS.ERR (R36). -/
  err : Bool
  /-- STATUS.ERRCODE, 4 bits (R29, R36). -/
  errCode : BitVec 4
  /-- STATE, the working matrix of the round pipeline (R30). -/
  stateReg : Mat
  /-- RK[0..10], the round-key store (R31); RKW[i] is a view of it (R32). -/
  rk : RoundKeys
  /-- PEND, the accepted command or none (R37). The pair (op, idx) is held as the command it names. Log entry 6. -/
  pend : Option Instr
  /-- The model's own: whose turn it is, step after step (R19, R212). Log entry 1. -/
  inputs : List Turn
  /-- The model's own: the response of the last step, none if it was no host access (R62). Log entry 4. -/
  resp : Option BusResp
  deriving DecidableEq, Repr

/-- The machine right after reset: every element at the value of R41's table. `inputs` and `resp`, which are not the
spec's, are empty (log entries 1 and 4). -/
def State.reset : State where
  key := Vector.replicate 4 0
  din := Vector.replicate 4 0
  dout := Vector.replicate 4 0
  opa := 0
  opb := 0
  res := 0
  busy := false
  done := false
  keyValid := false
  err := false
  errCode := 0
  stateReg := Mat.zero
  rk := Vector.replicate 11 Mat.zero
  pend := none
  inputs := []
  resp := none

/-- Why a step stops. The spec's own errors are no stops: they are recorded in STATUS and the core goes on (R190, R196).
Both reasons below are raised only in states that no run reaches. -/
inductive Fault where
  /-- Raised by the core's turn when BUSY = 1 and PEND is none, which R37 excludes: R211 then names no command to
  complete. Safe: the model stops where the spec gives no step. Log entry 7. -/
  | busyWithoutCommand
  /-- Raised by the completion of an RCON or ARK whose index the accept checks exclude: `Rcon[i]` for `i >= 10` and
  `RK[k]` for `k >= 11` do not exist (R75, D36). Safe: the model stops where the spec gives no value. Log entry 7. -/
  | indexDoesNotExist
  deriving DecidableEq, Repr

/-- Why an instruction has no meaning. -/
inductive Refusal where
  /-- Raised by an arm of `exec` whose instruction has no meaning in the model. No arm does so. Safe. -/
  | notModelled (mnemonic : String)
  deriving DecidableEq, Repr

/-- The outcome of one step. -/
abbrev Result := Host.Outcome State Fault Refusal

end Sys2Proof.Machine
end

