-- ==== Sys2Proof/Machine/Flags.lean ====
section
/-! DEFINITION. The STATUS bits: their layout in one word (10_state.md R29), error recording and clearing (60_exceptions.md R196, R200) and what accept and completion do to them (R210, R211). -/

namespace Sys2Proof.Machine

/-- One bit of STATUS as a 32-bit number. -/
def flagBit (b : Bool) : Word := if b then 1 else 0

/-- The value a read of STATUS returns:
`zext_32(ERRCODE) << 8 | ERR << 3 | KEY_VALID << 2 | DONE << 1 | BUSY` (R58); reserved bits read 0 (R29). -/
def statusWord (s : State) : Word :=
  (s.errCode.setWidth 32 <<< 8) ||| (flagBit s.err <<< 3) ||| (flagBit s.keyValid <<< 2) |||
    (flagBit s.done <<< 1) ||| flagBit s.busy

/-- `raise Error(code)`: the one operation every error of the core takes (R196). The first error since the last clear is
recorded; a later one is not. The core has no trap, so nothing else happens (R190). -/
def raiseError (e : ErrName) (s : State) : State :=
  if s.err then s else { s with err := true, errCode := e.code }

/-- ERR <- 0 and ERRCODE <- 0 (R200): what stands in place of a return from an exception, which the core does not have. -/
def clearError (s : State) : State := { s with err := false, errCode := 0 }

/-- The effect of a write of `v` to STATUS: only bit 3 has one (R61). -/
def writeStatus (v : Word) (s : State) : State := if v.getLsbD 3 then clearError s else s

/-- Accept: `st.PEND <- (op, idx); st.BUSY <- 1; st.DONE <- 0`, and nothing else (R210). -/
def accept (i : Instr) (s : State) : State := { s with pend := some i, busy := true, done := false }

/-- The end of the completion step: `st.PEND <- none; st.BUSY <- 0; st.DONE <- 1` (R211). -/
def retire (s : State) : State := { s with pend := none, busy := false, done := true }

end Sys2Proof.Machine
end

