-- ==== Sys2Proof/Machine/Operands.lean ====
section
/-! DEFINITION. Operand assembly (30_encoding.md R78), the byte views of the registers (10_state.md R39, 20_memory.md R54, R55), the conversion of a Block to a matrix and back (42_round_ops.md R130, R131), and the operand checks of 60_exceptions.md R197. -/

namespace Sys2Proof.Machine

/-- `b[7:0] <- v[31-8j : 24-8j]`: byte `j` of a 32-bit register, byte 0 in bits 31:24 (R39, R54, R55). -/
def byteLane (v : Word) (j : Fin 4) : Byte := v.extractLsb' (24 - 8 * j.val) 8

/-- `{a, b, c, d}`: the Word whose first byte is `a`, in bits 31:24 (R11, R55). -/
def packWord (a b c d : Byte) : Word :=
  (a.setWidth 32 <<< 24) ||| (b.setWidth 32 <<< 16) ||| (c.setWidth 32 <<< 8) ||| d.setWidth 32

/-- `bytesOf(R[0..3])[4n + j] = R[n][31-8j : 24-8j]` (R39). -/
def bytesOf (r : Quad) : Block :=
  Vector.ofFn fun i : Fin 16 => byteLane r[i.val / 4] (Fin.ofNat 4 (i.val % 4))

/-- `wordsOf(b[0..15])[n] = { b[4n], b[4n+1], b[4n+2], b[4n+3] }` (R39). -/
def wordsOf (b : Block) : Quad :=
  Vector.ofFn fun n : Fin 4 => packWord b[4 * n.val] b[4 * n.val + 1] b[4 * n.val + 2] b[4 * n.val + 3]

/-- `fromBlock(b)[r][c] = b[r + 4c]` (R130). -/
def fromBlock (b : Block) : Mat := Mat.build fun r c => b[r.val + 4 * c.val]

/-- `toBlock(s)[i] = s[i mod 4][i / 4]` (R131). -/
def toBlock (m : Mat) : Block :=
  Vector.ofFn fun i : Fin 16 => m.at (Fin.ofNat 4 (i.val % 4)) (Fin.ofNat 4 (i.val / 4))

/-- The Key as bytes (R39). -/
def keyBytes (s : State) : Block := bytesOf s.key

/-- The input block as bytes (R39). -/
def dinBytes (s : State) : Block := bytesOf s.din

/-- The byte operand `a = OPA[7:0]` (R78). -/
def byteA (s : State) : Byte := s.opa.extractLsb' 0 8

/-- The byte operand `b = OPB[7:0]` (R78). -/
def byteB (s : State) : Byte := s.opb.extractLsb' 0 8

/-- `zext_32(v)` of a byte result: RES[7:0] = v and RES[31:8] = 0 (R11, R27). -/
def zext32 (v : Byte) : Word := v.setWidth 32

/-- `RKW[i] = { RK[i/4][0][i mod 4], RK[i/4][1][i mod 4], RK[i/4][2][i mod 4], RK[i/4][3][i mod 4] }` (R32). -/
def rkWord (rk : RoundKeys) (i : Fin 44) : Word :=
  let m := rk[i.val / 4]
  let c := Fin.ofNat 4 (i.val % 4)
  packWord (m.at 0 c) (m.at 1 c) (m.at 2 c) (m.at 3 c)

/-- No check beyond the decoder's. -/
def noCheck (_ : State) : Option ErrName := none

/-- Check 4 for GFXT, SBOX and ISBOX: OPA[31:8] must be 0 (R79, R197). -/
def checkByteA (s : State) : Option ErrName :=
  if s.opa.extractLsb' 8 24 ≠ 0 then some .invalidByteValue else none

/-- Check 4 for GFADD and GFMUL: OPA[31:8] and OPB[31:8] must be 0 (R79, R197). -/
def checkBytesAB (s : State) : Option ErrName :=
  if s.opa.extractLsb' 8 24 ≠ 0 ∨ s.opb.extractLsb' 8 24 ≠ 0 then some .invalidByteValue else none

/-- Check 5 for ENC, DEC and ARK: a valid expansion is stored (R33, R197). -/
def checkKeyValid (s : State) : Option ErrName := if s.keyValid then none else some .keyNotValid

/-- Check 3: the index is at most `max` (R75, R197). The decoder has made it already for a word of CMD. -/
def checkIndex (max : Nat) (idx : BitVec 4) : Option ErrName := if max < idx.toNat then some .indexRange else none

end Sys2Proof.Machine
end

