-- ==== Sys2Proof/Machine/Ops.lean ====
section
/-! DEFINITION. The operations the meanings and the bus share: reading and writing the registers of the window (20_memory.md R57, R58, R60, R61), answering on the bus (R62), the life of a command (60_exceptions.md R197, R210, R211) and reset (70_reset_and_hazards.md R220). -/

namespace Sys2Proof.Machine

/-- The value of a mapped register (R58). CMD holds nothing and reads 0 (R28). RKW is a view of RK (R32). -/
def readReg (r : RegName) (s : State) : Word :=
  match r with
  | .key n => s.key[n]
  | .din n => s.din[n]
  | .dout n => s.dout[n]
  | .opa => s.opa
  | .opb => s.opb
  | .res => s.res
  | .cmd => 0
  | .status => statusWord s
  | .rkw i => rkWord s.rk i

/-- "register is read-only (DOUT[n], RES, RKW[i])" (R57). -/
def readOnly : RegName → Bool
  | .dout _ | .res | .rkw _ => true
  | .key _ | .din _ | .opa | .opb | .cmd | .status => false

/-- "register in {KEY[n], DIN[n], OPA, OPB, CMD}": the registers a host write reaches only while BUSY = 0 (R57, R59). -/
def lockedWhileBusy : RegName → Bool
  | .key _ | .din _ | .opa | .opb | .cmd => true
  | .dout _ | .res | .rkw _ | .status => false

/-- An accepted write to a register that holds a value (R57). A write to KEY[n] clears KEY_VALID too, "even if `v` equals
the old value" (R60). A write to CMD presents a command instead and stores nothing (R28); the read-only registers are
never written by the host. -/
def writeReg (r : RegName) (v : Word) (s : State) : State :=
  match r with
  | .key n => { s with key := s.key.set n v, keyValid := false }
  | .din n => { s with din := s.din.set n v }
  | .opa => { s with opa := v }
  | .opb => { s with opb := v }
  | .status => writeStatus v s
  | .dout _ | .res | .rkw _ | .cmd => s

/-- The core answers an access (R62). -/
def respond (k : RespKind) (data : Option Word) (s : State) : State := { s with resp := some ⟨k, data⟩ }

/-- Reset: every element of the core takes its value of R41, whatever it was, and a busy command is abandoned (R220,
R221). The turns still to come are the environment's and stay. Log entries 1 and 11. -/
def resetCore (s : State) : State := { State.reset with inputs := s.inputs }

/-- A command's completion: its effect, then PEND, BUSY and DONE (R211). All in one step. -/
def completeWith (effect : State → Result) (s : State) : Result :=
  match effect s with
  | .next t => .next (retire t)
  | .fault f => .fault f
  | .refused r => .refused r

/-- The life of command `i`, whose checks at accept are `check` and whose effect at completion is `effect`.
While the core is idle the command is presented to it: it is rejected with the error of the first check that fails
(R197, R199) or accepted (R210). While the core is busy with this very command, the step is its completion (R211). While
it is busy with another, the command is turned away with BUSY (R59). Log entry 5. -/
def command (i : Instr) (check : State → Option ErrName) (effect : State → Result) (s : State) : Result :=
  if s.busy then
    if s.pend = some i then completeWith effect s
    else .next (raiseError .busy s)
  else
    match check s with
    | some e => .next (raiseError e s)
    | none => .next (accept i s)

/-- The effect of a scalar command: RES gets its result, and nothing else changes (R27). -/
def writeRes (v : Word) (s : State) : Result := .next { s with res := v }

/-- The effect of a round command: STATE gets its result, and nothing else changes (R30). -/
def writeState (m : Mat) (s : State) : Result := .next { s with stateReg := m }

end Sys2Proof.Machine
end

