-- ==== Sys2Proof/Machine/Gf256.lean ====
section
/-! DEFINITION. The GF256 arithmetic unit (40_gf256.md): add, xtimes and multiply, and the commands GFADD, GFXT and GFMUL. The unit has no inversion or division (R98). -/

namespace Sys2Proof.Machine

/-- `add(a, b) = a xor b` (R91). -/
def gfAdd (a b : Byte) : Byte := a ^^^ b

/-- `xtimes(a)`: shift left by one, and reduce with 0x1B if `a[7]` was 1 (R92). -/
def xtimes (a : Byte) : Byte := if a.getLsbD 7 then (a <<< 1) ^^^ 0x1B else a <<< 1

/-- One turn of R93's loop on the pair (acc, p): `if b[i] = 1: acc <- add(acc, p)`, then `p <- xtimes(p)`. -/
def multiplyStep (b : Byte) (accP : Byte × Byte) (i : Nat) : Byte × Byte :=
  (if b.getLsbD i then gfAdd accP.1 accP.2 else accP.1, xtimes accP.2)

/-- `multiply(a, b)`: the loop for `i` in 0..7, from acc = 0x00 and p = a (R93). -/
def multiply (a b : Byte) : Byte := (([0, 1, 2, 3, 4, 5, 6, 7] : List Nat).foldl (multiplyStep b) (0x00, a)).1

/-- GFADD: field addition (R95). -/
def execGfadd (s : State) : Result :=
  command .gfadd checkBytesAB (fun t => writeRes (zext32 (gfAdd (byteA t) (byteB t))) t) s

/-- GFXT: multiply by x. OPB is not read or checked (R96). -/
def execGfxt (s : State) : Result :=
  command .gfxt checkByteA (fun t => writeRes (zext32 (xtimes (byteA t))) t) s

/-- GFMUL: field multiplication (R97). -/
def execGfmul (s : State) : Result :=
  command .gfmul checkBytesAB (fun t => writeRes (zext32 (multiply (byteA t) (byteB t))) t) s

end Sys2Proof.Machine
end

