-- ==== Sys2Proof/Machine/RoundOps.lean ====
section
/-! DEFINITION. The round pipeline (42_round_ops.md): the seven round functions on the 4x4 matrix, and the commands LDST, STST, SUBB, ISUBB, SHR, ISHR, MIXC, IMIXC and ARK. -/

namespace Sys2Proof.Machine

/-- `SubBytes(s)[r][c] = SBox(s[r][c])` (R132). -/
def subBytes (m : Mat) : Mat := Mat.build fun r c => sbox (m.at r c)

/-- `InvSubBytes(s)[r][c] = InvSBox(s[r][c])` (R133). -/
def invSubBytes (m : Mat) : Mat := Mat.build fun r c => invSbox (m.at r c)

/-- `ShiftRows(s)[r][c] = s[r][(c + r) mod 4]`: row `r` shifted left by `r` (R134, 90_conflicts.md C1). -/
def shiftRows (m : Mat) : Mat := Mat.build fun r c => m.at r (c + r)

/-- `InvShiftRows(s)[r][c] = s[r][(c - r) mod 4]`: row `r` shifted right by `r` (R135). -/
def invShiftRows (m : Mat) : Mat := Mat.build fun r c => m.at r (c - r)

/-- The forward coefficients `f = [0x02, 0x03, 0x01, 0x01]` (R136). -/
def mixCoeffs : Vector Byte 4 := #v[0x02, 0x03, 0x01, 0x01]

/-- The inverse coefficients `g = [0x0E, 0x0B, 0x0D, 0x09]` (R136). -/
def invMixCoeffs : Vector Byte 4 := #v[0x0E, 0x0B, 0x0D, 0x09]

/-- The matrix whose row `r` is the coefficient list rotated right by `r`: `M[r][k] = f[(k - r) mod 4]` (R136). -/
def rotatedRight (f : Vector Byte 4) : Mat := Mat.build fun r k => f[k - r]

/-- Each column times a coefficient matrix: `add over k in 0..3 of multiply(M[r][k], s[k][c])` (R137, R138). -/
def mulColumns (coef m : Mat) : Mat := Mat.build fun r c =>
  gfAdd (gfAdd (gfAdd (multiply (coef.at r 0) (m.at 0 c)) (multiply (coef.at r 1) (m.at 1 c)))
    (multiply (coef.at r 2) (m.at 2 c))) (multiply (coef.at r 3) (m.at 3 c))

/-- `MixColumns` (R137). -/
def mixColumns (m : Mat) : Mat := mulColumns (rotatedRight mixCoeffs) m

/-- `InvMixColumns` (R138). -/
def invMixColumns (m : Mat) : Mat := mulColumns (rotatedRight invMixCoeffs) m

/-- `AddRoundKey(s, k)[r][c] = add(s[r][c], k[r][c])` (R139). -/
def addRoundKey (m k : Mat) : Mat := Mat.build fun r c => gfAdd (m.at r c) (k.at r c)

/-- LDST: `STATE <- fromBlock(dinBytes)` (R142). -/
def execLdst (s : State) : Result :=
  command .ldst noCheck (fun t => writeState (fromBlock (dinBytes t)) t) s

/-- STST: `DOUT[0..3] <- wordsOf(toBlock(STATE))` (R143). -/
def execStst (s : State) : Result :=
  command .stst noCheck (fun t => .next { t with dout := wordsOf (toBlock t.stateReg) }) s

/-- SUBB: SubBytes (R144). -/
def execSubb (s : State) : Result :=
  command .subb noCheck (fun t => writeState (subBytes t.stateReg) t) s

/-- ISUBB: InvSubBytes (R145). -/
def execIsubb (s : State) : Result :=
  command .isubb noCheck (fun t => writeState (invSubBytes t.stateReg) t) s

/-- SHR: ShiftRows (R146). -/
def execShr (s : State) : Result :=
  command .shr noCheck (fun t => writeState (shiftRows t.stateReg) t) s

/-- ISHR: InvShiftRows (R147). -/
def execIshr (s : State) : Result :=
  command .ishr noCheck (fun t => writeState (invShiftRows t.stateReg) t) s

/-- MIXC: MixColumns (R148). -/
def execMixc (s : State) : Result :=
  command .mixc noCheck (fun t => writeState (mixColumns t.stateReg) t) s

/-- IMIXC: InvMixColumns (R149). -/
def execImixc (s : State) : Result :=
  command .imixc noCheck (fun t => writeState (invMixColumns t.stateReg) t) s

/-- ARK k: AddRoundKey with the stored round key `k`; the index is checked before the key (R150). -/
def execArk (k : BitVec 4) (s : State) : Result :=
  command (.ark k) (fun t => (checkIndex 10 k).or (checkKeyValid t))
    (fun t =>
      match t.rk[k.toNat]? with
      | some roundKey => writeState (addRoundKey t.stateReg roundKey) t
      | none => .fault .indexDoesNotExist) s

end Sys2Proof.Machine
end

