-- ==== Sys2Proof/Machine/KeySchedule.lean ====
section
/-! DEFINITION. The key-schedule expander (43_key_schedule.md): KeyExpansion and the command KEYEXP. -/

namespace Sys2Proof.Machine

/-- One turn of R161's recurrence, from the words `w[4i..4i+3]` of round key `i` to those of round key `i + 1`. Only the
first byte of SubWord's output, bits 31:24, gets the round constant. -/
def nextGroup (rcon : Byte) (w : Quad) : Quad :=
  let z := subWord (rotWord w[3]) ^^^ packWord rcon 0 0 0
  let w0 := w[0] ^^^ z
  let w1 := w0 ^^^ w[1]
  let w2 := w1 ^^^ w[2]
  let w3 := w2 ^^^ w[3]
  #v[w0, w1, w2, w3]

/-- The words `w[4k..4k+3]` of round key `k`: the key itself for `k = 0` (R160), then the recurrence (R161). -/
def roundKeyWords (key : Block) : (k : Nat) → k ≤ 10 → Quad
  | 0, _ => wordsOf key
  | k + 1, h => nextGroup (rconTable[k]'(by omega)) (roundKeyWords key k (by omega))

/-- `KeyExpansion(key)[k][r][c] = w[4k + c][r]`: word `c` of round key `k` is column `c` of its matrix (R162). -/
def keyExpansion (key : Block) : RoundKeys :=
  Vector.ofFn fun k : Fin 11 =>
    let w := roundKeyWords key k.val (by omega)
    Mat.build fun r c => byteLane w[c] r

/-- KEYEXP: `RK[0..10] <- KeyExpansion(keyBytes)`, all 11 entries in one step, and `KEY_VALID <- 1` (R164). -/
def execKeyexp (s : State) : Result :=
  command .keyexp noCheck (fun t => .next { t with rk := keyExpansion (keyBytes t), keyValid := true }) s

end Sys2Proof.Machine
end

