-- ==== Sys2Proof/Machine/BlockCipher.lean ====
section
/-! DEFINITION. The AES-128 cipher controller (44_cipher.md): Cipher, InvCipher, and the commands ENC and DEC. -/

namespace Sys2Proof.Machine

/-- One full round: SubBytes, ShiftRows, MixColumns, AddRoundKey (R170). -/
def fullRound (rk : RoundKeys) (m : Mat) (r : Fin 11) : Mat :=
  addRoundKey (mixColumns (shiftRows (subBytes m))) rk[r]

/-- One full round of the inverse cipher: InvShiftRows, InvSubBytes, AddRoundKey, InvMixColumns (R171). -/
def invFullRound (rk : RoundKeys) (m : Mat) (r : Fin 11) : Mat :=
  invMixColumns (addRoundKey (invSubBytes (invShiftRows m)) rk[r])

/-- `Cipher(block, RK)`: the initial key addition, rounds 1 to 9, and round 10 without MixColumns (R170). -/
def cipher (b : Block) (rk : RoundKeys) : Block :=
  let start := addRoundKey (fromBlock b) rk[0]
  let nine := ([1, 2, 3, 4, 5, 6, 7, 8, 9] : List (Fin 11)).foldl (fullRound rk) start
  toBlock (addRoundKey (shiftRows (subBytes nine)) rk[10])

/-- `InvCipher(block, RK)`: the mirror, rounds 9 down to 1 (R171). -/
def invCipher (b : Block) (rk : RoundKeys) : Block :=
  let start := addRoundKey (fromBlock b) rk[10]
  let nine := ([9, 8, 7, 6, 5, 4, 3, 2, 1] : List (Fin 11)).foldl (invFullRound rk) start
  toBlock (addRoundKey (invSubBytes (invShiftRows nine)) rk[0])

/-- The effect of ENC and DEC: `STATE <- fromBlock(out); DOUT[0..3] <- wordsOf(out)` (R174-R176). -/
def writeBlock (out : Block) (s : State) : Result :=
  .next { s with stateReg := fromBlock out, dout := wordsOf out }

/-- ENC: encrypt one block (R174). -/
def execEnc (s : State) : Result :=
  command .enc checkKeyValid (fun t => writeBlock (cipher (dinBytes t) t.rk) t) s

/-- DEC: decrypt one block (R175). -/
def execDec (s : State) : Result :=
  command .dec checkKeyValid (fun t => writeBlock (invCipher (dinBytes t) t.rk) t) s

end Sys2Proof.Machine
end

