-- ==== Sys2Proof/Machine/Dispatch.lean ====
section
/-! DEFINITION. One arm per command: each calls the command's meaning. -/

namespace Sys2Proof.Machine

def exec (i : Instr) (s : State) : Host.Outcome State Fault Refusal :=
  match i with
  | .gfadd => Sys2Proof.Machine.execGfadd s
  | .gfxt => Sys2Proof.Machine.execGfxt s
  | .gfmul => Sys2Proof.Machine.execGfmul s
  | .sbox => Sys2Proof.Machine.execSbox s
  | .isbox => Sys2Proof.Machine.execIsbox s
  | .rotw => Sys2Proof.Machine.execRotw s
  | .subw => Sys2Proof.Machine.execSubw s
  | .rcon i0 => Sys2Proof.Machine.execRcon i0 s
  | .ldst => Sys2Proof.Machine.execLdst s
  | .stst => Sys2Proof.Machine.execStst s
  | .subb => Sys2Proof.Machine.execSubb s
  | .isubb => Sys2Proof.Machine.execIsubb s
  | .shr => Sys2Proof.Machine.execShr s
  | .ishr => Sys2Proof.Machine.execIshr s
  | .mixc => Sys2Proof.Machine.execMixc s
  | .imixc => Sys2Proof.Machine.execImixc s
  | .ark k => Sys2Proof.Machine.execArk k s
  | .keyexp => Sys2Proof.Machine.execKeyexp s
  | .enc => Sys2Proof.Machine.execEnc s
  | .dec => Sys2Proof.Machine.execDec s

end Sys2Proof.Machine
end

