-- ==== Sys2Proof/Machine/Bus.lean ====
section
/-! DEFINITION. One turn of one agent: the host access step (20_memory.md R57), the presentation of a command word (60_exceptions.md R197), the core's completion step (R211) and reset (70_reset_and_hazards.md R220). -/

namespace Sys2Proof.Machine

/-- The register an access of `n` bytes at `off` names: none for a width other than 4, an offset that is not a multiple
of 4, or an unmapped offset (R52, R53, R57). -/
def accessed (off : BitVec 9) (n : Nat) : Option RegName := if n = 4 then regAt off else none

/-- The bus answers ERROR and the error is recorded; "no other effect" (R57, R62). -/
def busError (e : ErrName) (data : Option Word) (s : State) : State := respond .error data (raiseError e s)

/-- `BusRead(off, n)` (R57, R58). A read that gets ERROR returns 0x00000000 (R62). -/
def busRead (off : BitVec 9) (n : Nat) (s : State) : Result :=
  match accessed off n with
  | none => .next (busError .badAccess (some 0) s)
  | some r => .next (respond .okay (some (readReg r s)) s)

/-- A command word that passed the bus checks: the decoder rejects it by name (R197, checks 1 to 3), or its command is
presented to the core, which makes checks 4 and 5 and accepts it. -/
def presentCommand (w : Word) (s : State) : Result :=
  match decodeCommand w with
  | .error e => .next (raiseError e s)
  | .ok i => exec i s

/-- `BusWrite(off, n, v)`, the checks in the order of R57 and R198. A rejected command word still gets OKAY (R199). -/
def busWrite (off : BitVec 9) (n : Nat) (v : Word) (s : State) : Result :=
  match accessed off n with
  | none => .next (busError .badAccess none s)
  | some r =>
    if readOnly r then .next (busError .badAccess none s)
    else if lockedWhileBusy r && s.busy then .next (busError .busy none s)
    else if r = .cmd then presentCommand v (respond .okay none s)
    else .next (respond .okay none (writeReg r v s))

/-- One host access, one indivisible step (R57, R63). -/
def hostAccess (a : Access) (s : State) : Result :=
  match a with
  | .read off n => busRead off n s
  | .write off n v => busWrite off n v s

/-- The core's step: "enabled exactly when `st.BUSY = 1`", the completion of the command in PEND (R211). While BUSY = 0
the core has nothing to do (log entry 2). -/
def coreTurn (s : State) : Result :=
  if s.busy then
    match s.pend with
    | some i => exec i s
    | none => .fault .busyWithoutCommand
  else .next s

/-- The next turn of the machine: the first of `inputs`, which that turn uses up, or the core's where none is left (R19,
R212). `resp` tells of this step alone. Log entries 1, 2 and 4. -/
def nextTurn (s : State) : Result :=
  match s.inputs with
  | [] => coreTurn { s with resp := none }
  | .core :: rest => coreTurn { s with inputs := rest, resp := none }
  | .host a :: rest => hostAccess a { s with inputs := rest, resp := none }
  | .reset :: rest => .next (resetCore { s with inputs := rest })

/-- The offset in the window of a platform address, if it lies in the window (R50). What lies outside is the platform's. -/
def offsetOfAddress (base addr : Nat) : Option (BitVec 9) :=
  if base ≤ addr ∧ addr < base + Config.windowBytes then some (BitVec.ofNat 9 (addr - base)) else none

/-- The access the core sees when a bus master reads `n` bytes at a platform address, if any (R50). -/
def readAtAddress (addr n : Nat) : Option Access :=
  (offsetOfAddress Config.aesBase addr).map fun off => .read off n

/-- The access the core sees when a bus master writes `n` bytes at a platform address, if any (R50). -/
def writeAtAddress (addr n : Nat) (v : Word) : Option Access :=
  (offsetOfAddress Config.aesBase addr).map fun off => .write off n v

end Sys2Proof.Machine
end

