-- ==== Sys2Proof/Machine/Step.lean ====
section
/-! DEFINITION. One step of the machine: the next turn of the host, the core or reset (00_scope.md R19, R230). -/

namespace Sys2Proof.Machine

/-- One step (Machine/Bus.lean holds what it does). -/
def step (s : State) : Host.Outcome State Fault Refusal := nextTurn s

/-- `s` with the command word `w` about to be written to CMD by the host, and the core idle, so that the very next step
presents it (R66: "a command exists only as the data of one CMD write"; R59: CMD is locked while BUSY = 1). Log entry 8. -/
def State.withFetchWord (s : State) (_nbits w : Nat) : State :=
  { s with
    busy := false
    pend := none
    inputs := .host (.write (RegName.offset .cmd) 4 (BitVec.ofNat 32 w)) :: s.inputs }

end Sys2Proof.Machine
end

