-- ==== Sys2Proof/Safety.lean ====
section
/-! DEFINITION. What the claims are stated in: the invariant of the reachable states, runs of several steps, and the part of a state that is a command's operands and results. -/

namespace Sys2Proof

/-- GFADD, GFXT, GFMUL, SBOX and ISBOX read the byte OPA[7:0] (R25, R79). -/
def Instr.readsByteA : Instr → Bool
  | .gfadd | .gfxt | .gfmul | .sbox | .isbox => true
  | .rotw | .subw | .rcon _ | .ldst | .stst | .subb | .isubb | .shr | .ishr | .mixc | .imixc | .ark _ => false
  | .keyexp | .enc | .dec => false

/-- GFADD and GFMUL read the byte OPB[7:0] too (R26, R79). -/
def Instr.readsByteB : Instr → Bool
  | .gfadd | .gfmul => true
  | .gfxt | .sbox | .isbox | .rotw | .subw | .rcon _ | .ldst | .stst | .subb | .isubb | .shr | .ishr => false
  | .mixc | .imixc | .ark _ | .keyexp | .enc | .dec => false

/-- ENC, DEC and ARK need a valid key (R33). -/
def Instr.needsKey : Instr → Bool
  | .ark _ | .enc | .dec => true
  | .gfadd | .gfxt | .gfmul | .sbox | .isbox | .rotw | .subw | .rcon _ | .ldst | .stst | .subb | .isubb => false
  | .shr | .ishr | .mixc | .imixc | .keyexp => false

/-- The scalar commands, whose result is in RES (R27). -/
def Instr.writesRes : Instr → Bool
  | .gfadd | .gfxt | .gfmul | .sbox | .isbox | .rotw | .subw | .rcon _ => true
  | .ldst | .stst | .subb | .isubb | .shr | .ishr | .mixc | .imixc | .ark _ | .keyexp | .enc | .dec => false

/-- The commands that write STATE (R30). -/
def Instr.writesState : Instr → Bool
  | .ldst | .subb | .isubb | .shr | .ishr | .mixc | .imixc | .ark _ | .enc | .dec => true
  | .gfadd | .gfxt | .gfmul | .sbox | .isbox | .rotw | .subw | .rcon _ | .stst | .keyexp => false

/-- The commands that write DOUT (R24). -/
def Instr.writesDout : Instr → Bool
  | .stst | .enc | .dec => true
  | .gfadd | .gfxt | .gfmul | .sbox | .isbox | .rotw | .subw | .rcon _ | .ldst | .subb | .isubb | .shr => false
  | .ishr | .mixc | .imixc | .ark _ | .keyexp => false

namespace Machine

/-- The state meets every check of R197 that command `i` passed at its accept. -/
structure Accepted (i : Instr) (s : State) : Prop where
  indexInRange : i.wf = true
  byteA : i.readsByteA = true → s.opa.extractLsb' 8 24 = 0
  byteB : i.readsByteB = true → s.opb.extractLsb' 8 24 = 0
  key : i.needsKey = true → s.keyValid = true

/-- The invariant of the core's reachable states. -/
structure State.Inv (s : State) : Prop where
  /-- "BUSY = 1 exactly when PEND is not `none`" (R37). -/
  busyIffPend : s.busy = true ↔ s.pend ≠ none
  /-- DONE is 1 "from a completion to the next accept" (R29, R34, R35), so never while BUSY = 1. -/
  busyNotDone : s.busy = true → s.done = false
  /-- "`ERR = 0` if and only if `ERRCODE = 0`" (R36). -/
  errIffCode : s.err = false ↔ s.errCode = 0
  /-- ERRCODE is 0..7 (R29); codes 8-15 are "never produced" (R191). -/
  codeAssigned : s.errCode.toNat ≤ 7
  /-- "`KEY_VALID = 1` implies `RK = KeyExpansion(keyBytes)`" (R40). -/
  keySchedule : s.keyValid = true → s.rk = keyExpansion (keyBytes s)
  /-- The operands of a busy command still pass the checks of its accept (R59, R197, R210). -/
  pendAccepted : ∀ i, s.pend = some i → Accepted i s

/-- `k` steps, as long as each answers a next state. -/
def runSteps : Nat → State → Result
  | 0, s => .next s
  | k + 1, s =>
    match step s with
    | .next t => runSteps k t
    | .fault f => .fault f
    | .refused r => .refused r

/-- The state without the error record, the bus response and the turns to come: what R59 and R69 say a host access cannot
change under a busy command, and what its completion then makes of it. -/
def dataView (s : State) : State := { s with err := false, errCode := 0, resp := none, inputs := [] }

/-- What decides an error (R195), and the error record itself. -/
structure ErrorView where
  busy : Bool
  keyValid : Bool
  opaHigh : BitVec 24
  opbHigh : BitVec 24
  err : Bool
  errCode : BitVec 4
  deriving DecidableEq, Repr

/-- The error view of a state. -/
def errorView (s : State) : ErrorView :=
  ⟨s.busy, s.keyValid, s.opa.extractLsb' 8 24, s.opb.extractLsb' 8 24, s.err, s.errCode⟩

/-- Some turn to come is a reset. -/
def State.resetComing (s : State) : Bool := s.inputs.contains .reset

end Machine

end Sys2Proof
end

