-- ==== Sys2Proof/Certificates/Slice0/Obligations.lean ====
section
/-! DEFINITION. The statements about the core, for the provers. Each says which rule of spec/ it formalises. -/

namespace Sys2Proof.Claims

open Sys2Proof Sys2Proof.Machine

/-- The error record after error `code` (R196), written out. -/
def recorded (code : BitVec 4) (s : State) : State :=
  if s.err then s else { s with err := true, errCode := code }

/-- The state after the bus answered `k` with data `d`. -/
def answered (k : RespKind) (d : Option Word) (s : State) : State := { s with resp := some ⟨k, d⟩ }

/-- A command that has no check at accept beyond the decoder's: an idle core accepts it, which sets PEND and BUSY and
clears DONE (R210), and its completion does `effect`, the "complete:" pseudocode of its rule, then clears PEND and BUSY and
sets DONE (R211). Every other field of the state is as before: the equations are the frame. -/
def AlwaysAccepted (i : Instr) (effect : State → State) : Prop :=
  (∀ s, s.busy = false → exec i s = .next { s with pend := some i, busy := true, done := false }) ∧
  (∀ s, s.busy = true → s.pend = some i →
    exec i s = .next { effect s with pend := none, busy := false, done := true })

/-- A command with a check at accept: `check` gives the error code of the check that fails. A rejected command changes only
the error record (R196, R199); the rest is as in `AlwaysAccepted`. -/
def AcceptedIf (i : Instr) (check : State → Option (BitVec 4)) (effect : State → State) : Prop :=
  (∀ s c, s.busy = false → check s = some c → exec i s = .next (recorded c s)) ∧
  (∀ s, s.busy = false → check s = none →
    exec i s = .next { s with pend := some i, busy := true, done := false }) ∧
  (∀ s, s.busy = true → s.pend = some i →
    exec i s = .next { effect s with pend := none, busy := false, done := true })

/-- A CMD write while BUSY = 1 is rejected with BUSY, whatever command it carries (R59, R197). -/
def BusyRejects (word : Word) : Prop :=
  ∀ s, s.busy = true → hostAccess (.write 0x040 4 word) s = .next (answered .error none (recorded 6 s))

/-- The encoding of a command without an index: one word, and RESERVED_FIELD for every other word of its opcode. -/
def WordRule (i : Instr) (word : Word) : Prop :=
  decodeCommand word = .ok i ∧
  (∀ w : Word, w.extractLsb' 0 8 = word.extractLsb' 0 8 → w ≠ word → decodeCommand w = .error .reservedField) ∧
  BusyRejects word

/-- The encoding of a command with an index in 0..`max`: the word `opc | (k << 8)`; RESERVED_FIELD when RSV is not 0 and
INDEX_RANGE when the index is above `max`. -/
def IndexedWordRule (command : BitVec 4 → Instr) (opc : Byte) (max : Nat) : Prop :=
  (∀ k : BitVec 4, k.toNat ≤ max →
    decodeCommand (opc.setWidth 32 ||| (k.setWidth 32 <<< 8)) = .ok (command k)) ∧
  (∀ w : Word, w.extractLsb' 0 8 = opc → w.extractLsb' 12 20 ≠ 0 → decodeCommand w = .error .reservedField) ∧
  (∀ w : Word, w.extractLsb' 0 8 = opc → w.extractLsb' 12 20 = 0 → max < (w.extractLsb' 8 4).toNat →
    decodeCommand w = .error .indexRange) ∧
  (∀ k : BitVec 4, BusyRejects (opc.setWidth 32 ||| (k.setWidth 32 <<< 8)))

/-- INVALID_BYTE_VALUE (4) if OPA[31:8] is not 0. -/
def byteCheckA (s : State) : Option (BitVec 4) := if s.opa.extractLsb' 8 24 = 0 then none else some 4

/-- INVALID_BYTE_VALUE (4) if OPA[31:8] or OPB[31:8] is not 0. -/
def byteCheckAB (s : State) : Option (BitVec 4) :=
  if s.opa.extractLsb' 8 24 = 0 ∧ s.opb.extractLsb' 8 24 = 0 then none else some 4

/-- KEY_NOT_VALID (5) if KEY_VALID = 0. -/
def keyCheck (s : State) : Option (BitVec 4) := if s.keyValid then none else some 5

/-- The 16-byte block whose 32 hexadecimal digits are those of `n`, byte 0 first (R12). -/
def hexBlock (n : Nat) : Block := Vector.ofFn fun i : Fin 16 => BitVec.ofNat 8 (n >>> (8 * (15 - i.val)))

/-- The matrix of a block given in hexadecimal. -/
def hexMat (n : Nat) : Mat := fromBlock (hexBlock n)

/-- The carry-less product of two polynomials over GF(2), as bit patterns: the sum of `a * x^i` over the set bits of `b`. -/
def polyProduct (a b : Nat) : Nat :=
  (List.range 8).foldl (fun acc i => if b.testBit i then acc ^^^ (a <<< i) else acc) 0

/-- The remainder modulo m(x) = x^8 + x^4 + x^3 + x + 1 of a polynomial of degree at most 14, by long division. -/
def polyMod (p : Nat) : Nat :=
  ([14, 13, 12, 11, 10, 9, 8] : List Nat).foldl
    (fun acc i => if acc.testBit i then acc ^^^ (0x11B <<< (i - 8)) else acc) p

/-- The sum over `k` in 0..3 of `coef[r][k]` times `m[k][c]`. -/
def columnSum (coef m : Mat) (r c : Fin 4) : Byte :=
  multiply (coef.at r 0) (m.at 0 c) ^^^ multiply (coef.at r 1) (m.at 1 c) ^^^ multiply (coef.at r 2) (m.at 2 c) ^^^
    multiply (coef.at r 3) (m.at 3 c)

/-- The round constant at the top byte of a word. -/
def rconWord (c : Byte) : Word := c.setWidth 32 <<< 24

/-- A 4-byte write to STATUS with bit 3 set. -/
def ClearsError : Turn → Prop
  | .host (.write off n v) => off = 0x044 ∧ n = 4 ∧ v.getLsbD 3 = true
  | .host (.read _ _) => False
  | .core => False
  | .reset => False

/-- A 4-byte write to one of KEY[0..3]. -/
def WritesKey : Turn → Prop
  | .host (.write off n _) => off.toNat < 0x010 ∧ off.toNat % 4 = 0 ∧ n = 4
  | .host (.read _ _) => False
  | .core => False
  | .reset => False

/-- A 4-byte write at offset `target`. -/
def WritesAt (target : BitVec 9) : Turn → Prop
  | .host (.write off n _) => off = target ∧ n = 4
  | .host (.read _ _) => False
  | .core => False
  | .reset => False

/-- Whose turn it is: the head of `inputs`, or the core's where none is left. -/
def turnOf (s : State) : Turn := s.inputs.headD .core

/-- The core completes command `i` in this step. -/
def Completes (i : Instr) (s : State) : Prop := turnOf s = .core ∧ s.busy = true ∧ s.pend = some i

/-- An access that the core answers with ERROR: the three error cases of R57. -/
def ErrorCase (a : Access) (s : State) : Prop :=
  match a with
  | .read off n => n ≠ 4 ∨ regAt off = none
  | .write off n _ => n ≠ 4 ∨ ∀ r, regAt off = some r →
      readOnly r = true ∨ (lockedWhileBusy r = true ∧ s.busy = true)

/-- The offsets of R52 that are mapped to no register, and the misaligned ones. -/
def Unmapped (off : BitVec 9) : Prop :=
  off.toNat % 4 ≠ 0 ∨ off.toNat = 0x03C ∨ (0x048 ≤ off.toNat ∧ off.toNat ≤ 0x0FC) ∨ 0x1B0 ≤ off.toNat

/-- The 20 assigned values of OPC (R74). -/
def assigned : List Byte :=
  [0x10, 0x11, 0x12, 0x20, 0x21, 0x22, 0x23, 0x24, 0x30, 0x31, 0x32, 0x33, 0x34, 0x35, 0x36, 0x37, 0x38, 0x40, 0x50, 0x51]

/-- The checks of R197 in their order, on the command word and the state: the code of the first that fails. -/
def firstFailing (v : Word) (s : State) : Option (BitVec 4) :=
  let opc := v.extractLsb' 0 8
  let idx := v.extractLsb' 8 4
  if opc ∉ assigned then some 1
  else if v.extractLsb' 12 20 ≠ 0 then some 2
  else if opc ≠ 0x38 ∧ opc ≠ 0x24 ∧ idx ≠ 0 then some 2
  else if (opc = 0x38 ∧ 10 < idx.toNat) ∨ (opc = 0x24 ∧ 9 < idx.toNat) then some 3
  else if opc ∈ [0x11, 0x20, 0x21] ∧ s.opa.extractLsb' 8 24 ≠ 0 then some 4
  else if opc ∈ [0x10, 0x12] ∧ (s.opa.extractLsb' 8 24 ≠ 0 ∨ s.opb.extractLsb' 8 24 ≠ 0) then some 4
  else if opc ∈ [0x50, 0x51, 0x38] ∧ s.keyValid = false then some 5
  else none

end Sys2Proof.Claims

open Sys2Proof Sys2Proof.Machine Sys2Proof.Claims

/-! ### The commands: encoding, checks, accept, completion and frame -/

/-- R95. -/
def Obligations.GfaddWritesFieldSum : Prop :=
  WordRule .gfadd 0x00000010 ∧
  AcceptedIf .gfadd byteCheckAB
    (fun s => { s with res := (gfAdd (s.opa.extractLsb' 0 8) (s.opb.extractLsb' 0 8)).setWidth 32 }) ∧
  (∀ a : Byte, gfAdd a a = 0 ∧ gfAdd a 0 = a ∧ gfAdd 0 a = a) ∧
  gfAdd 0xFF 0x01 = 0xFE ∧ gfAdd 0x57 0x83 = 0xD4

/-- R96. -/
def Obligations.GfxtWritesTimesX : Prop :=
  WordRule .gfxt 0x00000011 ∧
  AcceptedIf .gfxt byteCheckA (fun s => { s with res := (xtimes (s.opa.extractLsb' 0 8)).setWidth 32 }) ∧
  xtimes 0x00 = 0x00 ∧ xtimes 0x80 = 0x1B ∧ xtimes 0xFF = 0xE5 ∧ xtimes 0x7F = 0xFE ∧ xtimes 0x8D = 0x01 ∧
  xtimes 0x57 = 0xAE ∧ xtimes 0xAE = 0x47

/-- R97. -/
def Obligations.GfmulWritesFieldProduct : Prop :=
  WordRule .gfmul 0x00000012 ∧
  AcceptedIf .gfmul byteCheckAB
    (fun s => { s with res := (multiply (s.opa.extractLsb' 0 8) (s.opb.extractLsb' 0 8)).setWidth 32 }) ∧
  (∀ a : Byte, multiply a 0 = 0 ∧ multiply 0 a = 0 ∧ multiply a 1 = a ∧ multiply 1 a = a) ∧
  multiply 0x02 0x80 = 0x1B ∧ multiply 0xFF 0xFF = 0x13 ∧ multiply 0x53 0xCA = 0x01 ∧ multiply 0x80 0x80 = 0x9A ∧
  multiply 0x57 0x83 = 0xC1 ∧ multiply 0x57 0x13 = 0xFE

/-- R118. -/
def Obligations.SboxWritesSubstitute : Prop :=
  WordRule .sbox 0x00000020 ∧
  AcceptedIf .sbox byteCheckA (fun s => { s with res := (sbox (s.opa.extractLsb' 0 8)).setWidth 32 }) ∧
  (∀ b : Byte, sbox b ≠ b) ∧
  sbox 0x00 = 0x63 ∧ sbox 0xFF = 0x16 ∧ sbox 0x52 = 0x00 ∧ sbox 0x53 = 0xED

/-- R119. -/
def Obligations.IsboxWritesInverseSubstitute : Prop :=
  WordRule .isbox 0x00000021 ∧
  AcceptedIf .isbox byteCheckA (fun s => { s with res := (invSbox (s.opa.extractLsb' 0 8)).setWidth 32 }) ∧
  invSbox 0x00 = 0x52 ∧ invSbox 0x63 = 0x00 ∧ invSbox 0xFF = 0x7D ∧ invSbox 0xED = 0x53

/-- R120. -/
def Obligations.RotwRotatesWord : Prop :=
  WordRule .rotw 0x00000022 ∧
  AlwaysAccepted .rotw
    (fun s => { s with res := (s.opa.extractLsb' 0 24).setWidth 32 <<< 8 ||| (s.opa.extractLsb' 24 8).setWidth 32 }) ∧
  (∀ w : Word, rotWord w = (w.extractLsb' 0 24).setWidth 32 <<< 8 ||| (w.extractLsb' 24 8).setWidth 32 ∧
    rotWord (rotWord (rotWord (rotWord w))) = w) ∧
  rotWord 0x00000000 = 0x00000000 ∧ rotWord 0xFFFFFFFF = 0xFFFFFFFF ∧ rotWord 0x09CF4F3C = 0xCF4F3C09

/-- R121. -/
def Obligations.SubwSubstitutesWord : Prop :=
  WordRule .subw 0x00000023 ∧
  AlwaysAccepted .subw (fun s => { s with
    res := (sbox (s.opa.extractLsb' 24 8)).setWidth 32 <<< 24 ||| (sbox (s.opa.extractLsb' 16 8)).setWidth 32 <<< 16 |||
      (sbox (s.opa.extractLsb' 8 8)).setWidth 32 <<< 8 ||| (sbox (s.opa.extractLsb' 0 8)).setWidth 32 }) ∧
  subWord 0x00000000 = 0x63636363 ∧ subWord 0xFFFFFFFF = 0x16161616 ∧ subWord 0xCF4F3C09 = 0x8A84EB01

/-- R122, with the constants of R117: the list and its doubling recurrence. An out-of-range word is rejected with INDEX_RANGE
and an OKAY response. -/
def Obligations.RconReadsRoundConstant : Prop :=
  IndexedWordRule .rcon 0x24 9 ∧
  (∀ i : Fin 10, AlwaysAccepted (.rcon (BitVec.ofNat 4 i.val))
    (fun s => { s with res := (rconTable[i]).setWidth 32 })) ∧
  (∀ (s : State) (w : Word), s.busy = false → w.extractLsb' 0 8 = 0x24 → w.extractLsb' 12 20 = 0 →
    9 < (w.extractLsb' 8 4).toNat →
    hostAccess (.write 0x040 4 w) s = .next (answered .okay none (recorded 3 s))) ∧
  rconTable = #v[0x01, 0x02, 0x04, 0x08, 0x10, 0x20, 0x40, 0x80, 0x1B, 0x36] ∧
  (∀ i : Fin 9, rconTable[i.val + 1] = xtimes rconTable[i.val])

/-- R142. -/
def Obligations.LdstLoadsState : Prop :=
  WordRule .ldst 0x00000030 ∧
  AlwaysAccepted .ldst (fun s => { s with stateReg := fromBlock (bytesOf s.din) }) ∧
  fromBlock (bytesOf #v[0x00010203, 0x04050607, 0x08090A0B, 0x0C0D0E0F]) =
    #v[#v[0x00, 0x04, 0x08, 0x0C], #v[0x01, 0x05, 0x09, 0x0D], #v[0x02, 0x06, 0x0A, 0x0E], #v[0x03, 0x07, 0x0B, 0x0F]] ∧
  fromBlock (bytesOf #v[0x3243F6A8, 0x885A308D, 0x313198A2, 0xE0370734]) =
    #v[#v[0x32, 0x88, 0x31, 0xE0], #v[0x43, 0x5A, 0x31, 0x37], #v[0xF6, 0x30, 0x98, 0x07], #v[0xA8, 0x8D, 0xA2, 0x34]]

/-- R143. -/
def Obligations.StstStoresState : Prop :=
  WordRule .stst 0x00000031 ∧
  AlwaysAccepted .stst (fun s => { s with dout := wordsOf (toBlock s.stateReg) }) ∧
  (∀ q : Quad, wordsOf (toBlock (fromBlock (bytesOf q))) = q)

/-- R144. -/
def Obligations.SubbSubstitutesBytes : Prop :=
  WordRule .subb 0x00000032 ∧
  AlwaysAccepted .subb (fun s => { s with stateReg := subBytes s.stateReg }) ∧
  (∀ m : Mat, ∀ r c, (subBytes m).at r c = sbox (m.at r c)) ∧
  subBytes (hexMat 0) = hexMat 0x63636363636363636363636363636363 ∧
  subBytes (hexMat 0x193de3bea0f4e22b9ac68d2ae9f84808) = hexMat 0xd42711aee0bf98f1b8b45de51e415230

/-- R145. -/
def Obligations.IsubbSubstitutesBytesBack : Prop :=
  WordRule .isubb 0x00000033 ∧
  AlwaysAccepted .isubb (fun s => { s with stateReg := invSubBytes s.stateReg }) ∧
  (∀ m : Mat, ∀ r c, (invSubBytes m).at r c = invSbox (m.at r c)) ∧
  (∀ m : Mat, invSubBytes (subBytes m) = m) ∧
  invSubBytes (hexMat 0) = hexMat 0x52525252525252525252525252525252 ∧
  invSubBytes (hexMat 0xd42711aee0bf98f1b8b45de51e415230) = hexMat 0x193de3bea0f4e22b9ac68d2ae9f84808

/-- R146. -/
def Obligations.ShrShiftsRowsLeft : Prop :=
  WordRule .shr 0x00000034 ∧
  AlwaysAccepted .shr (fun s => { s with stateReg := shiftRows s.stateReg }) ∧
  (∀ m : Mat, (∀ r c, m.at r c = m.at r 0) → shiftRows m = m) ∧
  (∀ m : Mat, (shiftRows m)[0] = m[0]) ∧
  shiftRows (hexMat 0x000102030405060708090a0b0c0d0e0f) = hexMat 0x00050a0f04090e03080d02070c01060b ∧
  shiftRows (hexMat 0xd42711aee0bf98f1b8b45de51e415230) = hexMat 0xd4bf5d30e0b452aeb84111f11e2798e5

/-- R147. -/
def Obligations.IshrShiftsRowsRight : Prop :=
  WordRule .ishr 0x00000035 ∧
  AlwaysAccepted .ishr (fun s => { s with stateReg := invShiftRows s.stateReg }) ∧
  (∀ m : Mat, invShiftRows (shiftRows m) = m) ∧
  invShiftRows (hexMat 0x000102030405060708090a0b0c0d0e0f) = hexMat 0x000d0a0704010e0b0805020f0c090603 ∧
  invShiftRows (hexMat 0xd4bf5d30e0b452aeb84111f11e2798e5) = hexMat 0xd42711aee0bf98f1b8b45de51e415230

/-- R148. -/
def Obligations.MixcMixesColumns : Prop :=
  WordRule .mixc 0x00000036 ∧
  AlwaysAccepted .mixc (fun s => { s with stateReg := mixColumns s.stateReg }) ∧
  (∀ (m : Mat) (c : Fin 4), (∀ r, m.at r c = m.at 0 c) → ∀ r, (mixColumns m).at r c = m.at r c) ∧
  mixColumns (hexMat 0) = hexMat 0 ∧
  mixColumns (hexMat 0xdb135345f20a225c01010101c6c6c6c6) = hexMat 0x8e4da1bc9fdc589d01010101c6c6c6c6 ∧
  mixColumns (hexMat 0xd4bf5d30e0b452aeb84111f11e2798e5) = hexMat 0x046681e5e0cb199a48f8d37a2806264c

/-- R149. -/
def Obligations.ImixcMixesColumnsBack : Prop :=
  WordRule .imixc 0x00000037 ∧
  AlwaysAccepted .imixc (fun s => { s with stateReg := invMixColumns s.stateReg }) ∧
  (∀ (m : Mat) (c : Fin 4), (∀ r, m.at r c = m.at 0 c) → ∀ r, (invMixColumns m).at r c = m.at r c) ∧
  (∀ m : Mat, invMixColumns (mixColumns m) = m) ∧
  invMixColumns (hexMat 0x046681e5e0cb199a48f8d37a2806264c) = hexMat 0xd4bf5d30e0b452aeb84111f11e2798e5

/-- R150. INDEX_RANGE is checked before the key: an out-of-range word is rejected with it whatever KEY_VALID is. -/
def Obligations.ArkAddsRoundKey : Prop :=
  IndexedWordRule .ark 0x38 10 ∧
  (∀ k : Fin 11, AcceptedIf (.ark (BitVec.ofNat 4 k.val)) keyCheck
    (fun s => { s with stateReg := addRoundKey s.stateReg s.rk[k] })) ∧
  (∀ (s : State) (w : Word), s.busy = false → w.extractLsb' 0 8 = 0x38 → w.extractLsb' 12 20 = 0 →
    10 < (w.extractLsb' 8 4).toNat →
    hostAccess (.write 0x040 4 w) s = .next (answered .okay none (recorded 3 s))) ∧
  (∀ m k : Mat, (∀ r c, (addRoundKey m k).at r c = m.at r c ^^^ k.at r c) ∧
    addRoundKey (addRoundKey m k) k = m ∧ addRoundKey m Mat.zero = m) ∧
  (∀ key : Block, (keyExpansion key)[0] = fromBlock key) ∧
  addRoundKey (hexMat 0x3243f6a8885a308d313198a2e0370734) (keyExpansion (hexBlock 0x2b7e151628aed2a6abf7158809cf4f3c))[0] =
    hexMat 0x193de3bea0f4e22b9ac68d2ae9f84808

/-- R164. -/
def Obligations.KeyexpExpandsKey : Prop :=
  WordRule .keyexp 0x00000040 ∧
  AlwaysAccepted .keyexp (fun s => { s with rk := keyExpansion (bytesOf s.key), keyValid := true }) ∧
  toBlock (keyExpansion (hexBlock 0))[1] = hexBlock 0x62636363626363636263636362636363 ∧
  toBlock (keyExpansion (hexBlock 0))[10] = hexBlock 0xb4ef5bcb3e92e21123e951cf6f8f188e ∧
  rkWord (keyExpansion (bytesOf #v[0x2b7e1516, 0x28aed2a6, 0xabf71588, 0x09cf4f3c])) 4 = 0xa0fafe17 ∧
  rkWord (keyExpansion (bytesOf #v[0x2b7e1516, 0x28aed2a6, 0xabf71588, 0x09cf4f3c])) 7 = 0x2a6c7605 ∧
  rkWord (keyExpansion (bytesOf #v[0x2b7e1516, 0x28aed2a6, 0xabf71588, 0x09cf4f3c])) 43 = 0xb6630ca6

/-- R174. -/
def Obligations.EncEncryptsBlock : Prop :=
  WordRule .enc 0x00000050 ∧
  AcceptedIf .enc keyCheck (fun s => { s with
    stateReg := fromBlock (cipher (bytesOf s.din) s.rk), dout := wordsOf (cipher (bytesOf s.din) s.rk) }) ∧
  cipher (hexBlock 0) (keyExpansion (hexBlock 0)) = hexBlock 0x66e94bd4ef8a2c3b884cfa59ca342b2e ∧
  cipher (hexBlock 0x3243f6a8885a308d313198a2e0370734) (keyExpansion (hexBlock 0x2b7e151628aed2a6abf7158809cf4f3c)) =
    hexBlock 0x3925841d02dc09fbdc118597196a0b32

/-- R175. -/
def Obligations.DecDecryptsBlock : Prop :=
  WordRule .dec 0x00000051 ∧
  AcceptedIf .dec keyCheck (fun s => { s with
    stateReg := fromBlock (invCipher (bytesOf s.din) s.rk), dout := wordsOf (invCipher (bytesOf s.din) s.rk) }) ∧
  invCipher (hexBlock 0) (keyExpansion (hexBlock 0)) = hexBlock 0x140f0f1011b5223d79587717ffd9ec3a ∧
  invCipher (hexBlock 0x3925841d02dc09fbdc118597196a0b32) (keyExpansion (hexBlock 0x2b7e151628aed2a6abf7158809cf4f3c)) =
    hexBlock 0x3243f6a8885a308d313198a2e0370734

/-! ### The functions of the algorithm -/

/-- R92 and R93: both are products of polynomials reduced modulo m(x), computed here by long division. -/
def Obligations.MultiplyIsPolynomialProductModM : Prop :=
  (∀ a b : Byte, (multiply a b).toNat = polyMod (polyProduct a.toNat b.toNat)) ∧
  (∀ a : Byte, (xtimes a).toNat = polyMod (2 * a.toNat)) ∧
  (∀ a : Byte, xtimes a = if a.getLsbD 7 = false then a <<< 1 else (a <<< 1) ^^^ 0x1B)

/-- R91 and R94. -/
def Obligations.FieldLawsHold : Prop :=
  (∀ a b c : Byte, gfAdd a b = a ^^^ b ∧ gfAdd a b = gfAdd b a ∧ gfAdd (gfAdd a b) c = gfAdd a (gfAdd b c) ∧
    gfAdd a 0 = a ∧ gfAdd a a = 0) ∧
  (∀ a b : Byte, multiply a b = multiply b a) ∧
  (∀ a b c : Byte, multiply a (gfAdd b c) = gfAdd (multiply a b) (multiply a c)) ∧
  (∀ a : Byte, multiply a 0x01 = a ∧ multiply a 0x00 = 0x00 ∧ xtimes a = multiply a 0x02)

/-- R112: the two equations, and that SBox is a permutation of the 256 Byte values. -/
def Obligations.SubstitutionTablesAreInverse : Prop :=
  (∀ b : Byte, invSbox (sbox b) = b ∧ sbox (invSbox b) = b) ∧ Function.Bijective sbox

/-- R113, which the spec marks as informative and from general knowledge: the tables follow the FIPS-197 construction. -/
def Obligations.SboxFollowsConstruction : Prop :=
  ∀ a t : Byte, (multiply a t = 0x01 ∨ (a = 0x00 ∧ t = 0x00)) →
    ∀ i : Fin 8, (sbox a).getLsbD i.val =
      (t.getLsbD i.val ^^ t.getLsbD ((i.val + 4) % 8) ^^ t.getLsbD ((i.val + 5) % 8) ^^ t.getLsbD ((i.val + 6) % 8) ^^
        t.getLsbD ((i.val + 7) % 8) ^^ (0x63 : Byte).getLsbD i.val)

/-- R39: the byte views are inverse to each other, with the lanes of R54. -/
def Obligations.RegisterViewsAreInverse : Prop :=
  (∀ q : Quad, wordsOf (bytesOf q) = q) ∧ (∀ b : Block, bytesOf (wordsOf b) = b) ∧
  (∀ (q : Quad) (n j : Fin 4), (bytesOf q)[4 * n.val + j.val] = (q[n] >>> (24 - 8 * j.val)).setWidth 8) ∧
  (∀ (b : Block) (n : Fin 4), (wordsOf b)[n] =
    b[4 * n.val].setWidth 32 <<< 24 ||| b[4 * n.val + 1].setWidth 32 <<< 16 ||| b[4 * n.val + 2].setWidth 32 <<< 8 |||
      b[4 * n.val + 3].setWidth 32) ∧
  (∀ s : State, keyBytes s = bytesOf s.key ∧ dinBytes s = bytesOf s.din)

/-- R130 and R131. -/
def Obligations.BlockAndMatrixAreInverse : Prop :=
  (∀ b : Block, toBlock (fromBlock b) = b) ∧ (∀ m : Mat, fromBlock (toBlock m) = m) ∧
  (∀ (b : Block) (r c : Fin 4), (fromBlock b).at r c = b[r.val + 4 * c.val]) ∧
  (∀ (m : Mat) (r c : Fin 4), (toBlock m)[r.val + 4 * c.val] = m.at r c)

/-- R134 and R135, as the spec spells the rows out. -/
def Obligations.RowShiftsMoveRows : Prop :=
  ∀ r0 r1 r2 r3 : Vector Byte 4,
    shiftRows #v[r0, r1, r2, r3] =
      #v[r0, #v[r1[1], r1[2], r1[3], r1[0]], #v[r2[2], r2[3], r2[0], r2[1]], #v[r3[3], r3[0], r3[1], r3[2]]] ∧
    invShiftRows #v[r0, r1, r2, r3] =
      #v[r0, #v[r1[3], r1[0], r1[1], r1[2]], #v[r2[2], r2[3], r2[0], r2[1]], #v[r3[1], r3[2], r3[3], r3[0]]] ∧
    ∀ (m : Mat) (r c : Fin 4), (shiftRows m).at r c = m.at r (Fin.ofNat 4 (c.val + r.val)) ∧
      (invShiftRows m).at r c = m.at r (Fin.ofNat 4 (c.val + 4 - r.val))

/-- R137 and R138: each column times the matrix of R136, and its inverse; R137's columns written out with xtimes. -/
def Obligations.MixColumnsMultipliesColumns : Prop :=
  (∀ m : Mat, invMixColumns (mixColumns m) = m ∧ mixColumns (invMixColumns m) = m) ∧
  (∀ (m : Mat) (r c : Fin 4),
    (mixColumns m).at r c = columnSum
      #v[#v[0x02, 0x03, 0x01, 0x01], #v[0x01, 0x02, 0x03, 0x01], #v[0x01, 0x01, 0x02, 0x03], #v[0x03, 0x01, 0x01, 0x02]] m r c ∧
    (invMixColumns m).at r c = columnSum
      #v[#v[0x0E, 0x0B, 0x0D, 0x09], #v[0x09, 0x0E, 0x0B, 0x0D], #v[0x0D, 0x09, 0x0E, 0x0B], #v[0x0B, 0x0D, 0x09, 0x0E]] m r c) ∧
  ∀ (m : Mat) (c : Fin 4),
    let s0 := m.at 0 c
    let s1 := m.at 1 c
    let s2 := m.at 2 c
    let s3 := m.at 3 c
    (mixColumns m).at 0 c = xtimes s0 ^^^ (xtimes s1 ^^^ s1) ^^^ s2 ^^^ s3 ∧
    (mixColumns m).at 1 c = s0 ^^^ xtimes s1 ^^^ (xtimes s2 ^^^ s2) ^^^ s3 ∧
    (mixColumns m).at 2 c = s0 ^^^ s1 ^^^ xtimes s2 ^^^ (xtimes s3 ^^^ s3) ∧
    (mixColumns m).at 3 c = (xtimes s0 ^^^ s0) ^^^ s1 ^^^ s2 ^^^ xtimes s3

/-- R140. -/
def Obligations.RoundFunctionsHaveInverses : Prop :=
  ∀ m k : Mat,
    invShiftRows (shiftRows m) = m ∧ invSubBytes (subBytes m) = m ∧ invMixColumns (mixColumns m) = m ∧
    addRoundKey (addRoundKey m k) k = m

/-- R160 to R162, through the word views of R32: what KEYEXP leaves in RKW[0..43]. -/
def Obligations.KeyScheduleFollowsRecurrence : Prop :=
  ∀ (key : Block),
    let w : Fin 44 → Word := rkWord (keyExpansion key)
    (∀ j : Fin 4, w ⟨j.val, by omega⟩ = (wordsOf key)[j]) ∧
    ∀ i : Fin 10,
      w ⟨4 * (i.val + 1), by omega⟩ =
        w ⟨4 * i.val, by omega⟩ ^^^ (subWord (rotWord (w ⟨4 * i.val + 3, by omega⟩)) ^^^ rconWord rconTable[i]) ∧
      ∀ j : Fin 3, w ⟨4 * (i.val + 1) + j.val + 1, by omega⟩ =
        w ⟨4 * (i.val + 1) + j.val, by omega⟩ ^^^ w ⟨4 * i.val + j.val + 1, by omega⟩

/-- R163: round key 0 is the key, so distinct keys give distinct schedules. -/
def Obligations.DistinctKeysGiveDistinctSchedules : Prop :=
  ∀ k k' : Block, toBlock (keyExpansion k)[0] = k ∧ (keyExpansion k = keyExpansion k' → k = k')

/-- R172, for every schedule, so for every key's, and its converse. -/
def Obligations.CipherAndInvCipherAreInverse : Prop :=
  ∀ (b : Block) (rk : RoundKeys), invCipher (cipher b rk) rk = b ∧ cipher (invCipher b rk) rk = b

/-! ### The machine -/

/-- The round trip of R172 on two completions: from the state that the completion of ENC leaves, take the one that differs
in DIN, which holds DOUT, and in PEND, BUSY and DONE, which are as after the accept of DEC. The completion of DEC from there
leaves the first block in DOUT and in STATE. The host accesses that lead there are not run here: OperandWriteStores and
CommandChecksRunInOrder say what they do. -/
def Obligations.DecAfterEncRestoresBlock : Prop :=
  ∀ s t u v : State, s.busy = true → s.pend = some .enc → exec .enc s = .next t →
    u = { t with din := t.dout, pend := some .dec, busy := true, done := false } → exec .dec u = .next v →
    v.dout = s.din ∧ v.stateReg = fromBlock (bytesOf s.din) ∧ v.rk = s.rk ∧ v.key = s.key

/-- R41 and R221: reset, whatever the state, busy or not. That the turns still to come stay and that no response is left
is the model's choice, about its own two fields (log entries 1 and 4). -/
def Obligations.ResetSetsEveryElement : Prop :=
  ∀ (s : State) (rest : List Turn), s.inputs = .reset :: rest → ∃ t, step s = .next t ∧
    (∀ n : Fin 4, t.key[n] = 0x00000000 ∧ t.din[n] = 0x00000000 ∧ t.dout[n] = 0x00000000) ∧
    t.opa = 0x00000000 ∧ t.opb = 0x00000000 ∧ t.res = 0x00000000 ∧
    t.busy = false ∧ t.done = false ∧ t.keyValid = false ∧ t.err = false ∧ t.errCode = 0 ∧
    (∀ r c, t.stateReg.at r c = 0x00) ∧ (∀ k : Fin 11, ∀ r c, (t.rk[k]).at r c = 0x00) ∧ t.pend = none ∧
    (∀ r : RegName, readReg r t = 0x00000000) ∧ t = { State.reset with inputs := rest }

/-- R58 and R28: a read of a mapped register, busy or not, changes nothing and returns the register's value: for STATUS
the bits of R29's layout. A BAD_ACCESS read records its error. -/
def Obligations.ReadReturnsRegister : Prop :=
  ∀ (s : State) (r : RegName),
    hostAccess (.read r.offset 4) s = .next (answered .okay (some (readReg r s)) s) ∧
    (∀ n, readReg (.key n) s = s.key[n] ∧ readReg (.din n) s = s.din[n] ∧ readReg (.dout n) s = s.dout[n]) ∧
    readReg .opa s = s.opa ∧ readReg .opb s = s.opb ∧ readReg .res s = s.res ∧ readReg .cmd s = 0x00000000 ∧
    (∀ i : Fin 44, readReg (.rkw i) s = rkWord s.rk i) ∧
    (readReg .status s).getLsbD 0 = s.busy ∧ (readReg .status s).getLsbD 1 = s.done ∧
    (readReg .status s).getLsbD 2 = s.keyValid ∧ (readReg .status s).getLsbD 3 = s.err ∧
    (readReg .status s).extractLsb' 8 4 = s.errCode ∧
    (readReg .status s).extractLsb' 4 4 = 0 ∧ (readReg .status s).extractLsb' 12 20 = 0 ∧
    (∀ off n, (n ≠ 4 ∨ regAt off = none) →
      hostAccess (.read off n) s = .next (answered .error (some 0x00000000) (recorded 7 s)))

/-- R60: an accepted KEY write, also of the old value, keeps RK; while KEY_VALID is 0 the commands that need the key are
rejected; and only a KEYEXP completion ends that. -/
def Obligations.KeyWriteInvalidatesSchedule : Prop :=
  (∀ (s : State) (n : Fin 4) (v : Word), s.busy = false →
    hostAccess (.write (RegName.key n).offset 4 v) s =
      .next (answered .okay none { s with key := s.key.set n v, keyValid := false })) ∧
  (∀ (s : State) (w : Word) (i : Instr), s.busy = false → s.keyValid = false → decodeCommand w = .ok i →
    i = .enc ∨ i = .dec ∨ (∃ k, i = .ark k) →
    hostAccess (.write 0x040 4 w) s = .next (answered .okay none (recorded 5 s))) ∧
  (∀ s t : State, s.keyValid = false → step s = .next t → ¬ Completes .keyexp s → t.keyValid = false)

/-- R57: accepted writes of DIN[n], OPA and OPB. -/
def Obligations.OperandWriteStores : Prop :=
  ∀ (s : State) (v : Word), s.busy = false →
    (∀ n : Fin 4, hostAccess (.write (RegName.din n).offset 4 v) s =
      .next (answered .okay none { s with din := s.din.set n v })) ∧
    hostAccess (.write 0x030 4 v) s = .next (answered .okay none { s with opa := v }) ∧
    hostAccess (.write 0x034 4 v) s = .next (answered .okay none { s with opb := v })

/-- R61: a STATUS write, busy or not. -/
def Obligations.StatusWriteClearsOnlyError : Prop :=
  ∀ (s : State) (v : Word), hostAccess (.write 0x044 4 v) s =
    .next (answered .okay none (if v.getLsbD 3 then { s with err := false, errCode := 0 } else s))

/-- R52 and R53: every access of another width, at a misaligned or at an unmapped offset. -/
def Obligations.BadAccessIsRejected : Prop :=
  ∀ (s : State) (off : BitVec 9) (n : Nat) (v : Word), (n ≠ 4 ∨ Unmapped off) →
    hostAccess (.read off n) s = .next (answered .error (some 0x00000000) (recorded 7 s)) ∧
    hostAccess (.write off n v) s = .next (answered .error none (recorded 7 s))

/-- R59, with the read-only writes of R57: what a write meets while BUSY = 1, and that a read-only register rejects a write
whether or not BUSY = 1. -/
def Obligations.BusyWriteIsRejected : Prop :=
  ∀ (s : State) (v : Word),
    (s.busy = true → ∀ r : RegName, ((∃ n, r = .key n) ∨ (∃ n, r = .din n) ∨ r = .opa ∨ r = .opb ∨ r = .cmd) →
      hostAccess (.write r.offset 4 v) s = .next (answered .error none (recorded 6 s))) ∧
    (∀ r : RegName, ((∃ n, r = .dout n) ∨ r = .res ∨ (∃ i, r = .rkw i)) →
      hostAccess (.write r.offset 4 v) s = .next (answered .error none (recorded 7 s))) ∧
    (s.busy = true → ∃ t, hostAccess (.write 0x044 4 v) s = .next t ∧ t.resp = some ⟨.okay, none⟩)

/-- R62. -/
def Obligations.ErrorResponseExactlyInErrorCases : Prop :=
  ∀ (s : State) (a : Access), ∃ t k d, hostAccess a s = .next t ∧ t.resp = some ⟨k, d⟩ ∧
    (k = .error ↔ ErrorCase a s) ∧
    (∀ off n, a = .read off n → k = .error → d = some 0x00000000) ∧
    (∀ off n v, a = .write off n v → d = none)

/-- R197 with R210, and the OKAY response of R199: a CMD write. BUSY is checked before all of R197's checks. -/
def Obligations.CommandChecksRunInOrder : Prop :=
  ∀ (s : State) (v : Word),
    (s.busy = true → hostAccess (.write 0x040 4 v) s = .next (answered .error none (recorded 6 s))) ∧
    (∀ c, s.busy = false → firstFailing v s = some c →
      hostAccess (.write 0x040 4 v) s = .next (answered .okay none (recorded c s))) ∧
    (s.busy = false → firstFailing v s = none → ∃ i : Instr, i.opc = v.extractLsb' 0 8 ∧ i.idx = v.extractLsb' 8 4 ∧
      hostAccess (.write 0x040 4 v) s =
        .next (answered .okay none { s with pend := some i, busy := true, done := false }))

/-- R199: an access that gets ERROR, and a command word that is not accepted, change nothing but the error record; a word
that the checks of R197 reject still gets OKAY. -/
def Obligations.RejectionIsPrecise : Prop :=
  ∀ (s t : State) (a : Access), hostAccess a s = .next t →
    ((∃ d, t.resp = some ⟨.error, d⟩) ∨ (∃ v, a = .write 0x040 4 v ∧ t.busy = s.busy)) →
    t = { s with err := t.err, errCode := t.errCode, resp := t.resp } ∧ t.err = true ∧
    (∀ v, a = .write 0x040 4 v → s.busy = false → t.resp = some ⟨.okay, none⟩)

/-- R196 and R200: the first error since the last clear stays recorded; only a STATUS write with bit 3 set, or reset,
clears it. -/
def Obligations.FirstErrorStaysUntilCleared : Prop :=
  ∀ s t : State, step s = .next t → s.err = true → ¬ ClearsError (turnOf s) → turnOf s ≠ .reset →
    t.err = true ∧ t.errCode = s.errCode

/-- R195: an error, and whether a command is accepted, depend on the access and on BUSY, KEY_VALID, OPA[31:8] and OPB[31:8]
(and, for the record, on ERR and ERRCODE: R196), not on STATE, RK, block data or anything else. -/
def Obligations.ErrorsDependOnStatusAndOperandsOnly : Prop :=
  ∀ (s s' t t' : State) (a : Access), errorView s = errorView s' → hostAccess a s = .next t → hostAccess a s' = .next t' →
    t.err = t'.err ∧ t.errCode = t'.errCode ∧ t.busy = t'.busy ∧ t.resp.map BusResp.kind = t'.resp.map BusResp.kind

/-- A step runs the decoded command. A word written to CMD while BUSY = 0 is presented as the command it decodes to; the
core's turn while BUSY = 1 runs the command in PEND; every other turn is the host's access, and an idle core's turn changes
nothing (log entries 1, 2 and 5). The turn is used up, and `resp` tells of this step alone (log entry 4). -/
def Obligations.StepRunsTheDecodedCommand : Prop :=
  ∀ (s : State) (rest : List Turn),
    (∀ (w : Word) (i : Instr), s.inputs = .host (.write 0x040 4 w) :: rest → s.busy = false → decodeCommand w = .ok i →
      step s = exec i { s with inputs := rest, resp := some ⟨.okay, none⟩ }) ∧
    (∀ i : Instr, (s.inputs = .core :: rest ∨ (s.inputs = [] ∧ rest = [])) → s.busy = true → s.pend = some i →
      step s = exec i { s with inputs := rest, resp := none }) ∧
    ((s.inputs = .core :: rest ∨ (s.inputs = [] ∧ rest = [])) → s.busy = false →
      step s = .next { s with inputs := rest, resp := none }) ∧
    (∀ a : Access, s.inputs = .host a :: rest → step s = hostAccess a { s with inputs := rest, resp := none })

/-- A meaning answers a next state, whatever the command and the state, but in one case no run reaches: an error only
rejects (R190), a command passes its checks or not (R197), and a completion goes on to its end (R211). The case is the
completion of an RCON or ARK whose index does not exist (R75, D36); that it faults is the model's choice (log entry 7). That
a command other than PEND's while BUSY = 1 answers a next state is the model's choice too (log entry 5). -/
def Obligations.MeaningsStopOnlyOnMissingIndices : Prop :=
  ∀ (i : Instr) (s : State), (∃ t, exec i s = .next t) ∨
    (exec i s = .fault .indexDoesNotExist ∧ s.busy = true ∧ s.pend = some i ∧ i.wf = false)

/-- The invariant of Safety.lean holds after reset (R36, R37, R40, R41). -/
def Obligations.InvariantHoldsAtReset : Prop := State.reset.Inv

/-- Every step keeps the invariant: BUSY = 1 iff PEND is not none (R37), not BUSY and DONE together (R34, R35), ERR = 0 iff
ERRCODE = 0 (R36), ERRCODE at most 7 (R191), KEY_VALID = 1 implies RK = KeyExpansion(KEY) (R40), and a busy command's
operands still pass its checks (R59). -/
def Obligations.StepKeepsInvariant : Prop :=
  ∀ s t : State, s.Inv → step s = .next t → t.Inv

/-- R202 and R190: from a state that meets the invariant no step faults or is refused, and a completion changes no error
record. -/
def Obligations.CoreNeverGetsStuck : Prop :=
  ∀ s : State, s.Inv → ∃ t, step s = .next t ∧
    (turnOf s = .core → s.busy = true → t.busy = false ∧ t.done = true ∧ t.err = s.err ∧ t.errCode = s.errCode)

/-- R212: an accepted command completes after finitely many steps, if no reset is asserted, whatever the host does
meanwhile; until then it stays in PEND. The bound is the number of turns the environment takes (log entry 1). -/
def Obligations.AcceptedCommandCompletes : Prop :=
  ∀ (s : State) (i : Instr), s.Inv → s.pend = some i → s.resetComing = false →
    ∃ k ≤ s.inputs.length, ∃ t u, runSteps k s = .next t ∧ t.busy = true ∧ t.pend = some i ∧ turnOf t = .core ∧
      step t = .next u ∧ u.pend = none ∧ u.busy = false ∧ u.done = true

/-- R59, R64, R69 and R210: what a busy command leaves in the machine does not depend on the host accesses that come between
its accept and its completion; they can change only the error record. That their order is a list of turns is the model's choice (log entry 1). -/
def Obligations.ResultIndependentOfHostAccesses : Prop :=
  ∀ (s : State) (accesses : List Access), s.Inv → s.busy = true →
    ∃ t u, runSteps (accesses.length + 1) { s with inputs := accesses.map .host ++ [.core] } = .next t ∧
      step { s with inputs := [.core] } = .next u ∧ dataView t = dataView u

/-- R24, R27, R30 and R31: which completions write DOUT, RES, STATE and RK. Nothing else but reset changes them. -/
def Obligations.OnlyCompletionsWriteResults : Prop :=
  ∀ s t : State, step s = .next t → turnOf s ≠ .reset →
    (t.dout ≠ s.dout → ∃ i, Completes i s ∧ i.writesDout = true) ∧
    (t.res ≠ s.res → ∃ i, Completes i s ∧ i.writesRes = true) ∧
    (t.stateReg ≠ s.stateReg → ∃ i, Completes i s ∧ i.writesState = true) ∧
    (t.rk ≠ s.rk → Completes .keyexp s)

/-- R33: what changes KEY_VALID. -/
def Obligations.KeyValidChangesOnlyAsSaid : Prop :=
  ∀ s t : State, step s = .next t →
    (s.keyValid = false → t.keyValid = true → Completes .keyexp s ∧ t.rk = keyExpansion (keyBytes s)) ∧
    (s.keyValid = true → t.keyValid = false → (WritesKey (turnOf s) ∧ s.busy = false) ∨ turnOf s = .reset)

/-- R22, R23, R25, R26 and R59: KEY, DIN, OPA and OPB change only by the host's write to them while BUSY = 0, or by reset. -/
def Obligations.OnlyTheHostWritesOperands : Prop :=
  ∀ s t : State, step s = .next t → turnOf s ≠ .reset →
    (∀ n : Fin 4, t.key[n] ≠ s.key[n] → s.busy = false ∧ WritesAt (RegName.key n).offset (turnOf s)) ∧
    (∀ n : Fin 4, t.din[n] ≠ s.din[n] → s.busy = false ∧ WritesAt (RegName.din n).offset (turnOf s)) ∧
    (t.opa ≠ s.opa → s.busy = false ∧ WritesAt 0x030 (turnOf s)) ∧
    (t.opb ≠ s.opb → s.busy = false ∧ WritesAt 0x034 (turnOf s))

/-- R34 and R35: what sets and clears BUSY and DONE. -/
def Obligations.BusyAndDoneLifecycle : Prop :=
  ∀ s t : State, s.Inv → step s = .next t → turnOf s ≠ .reset →
    (s.busy = false → t.busy = true → WritesAt 0x040 (turnOf s) ∧ t.done = false ∧ t.pend ≠ none) ∧
    (s.busy = true → t.busy = false → (∃ i, Completes i s) ∧ t.done = true) ∧
    (s.done = false → t.done = true → ∃ i, Completes i s) ∧
    (s.done = true → t.done = false → s.busy = false ∧ t.busy = true)

/-- R70 to R77 and R80: the decoder accepts exactly the encodings of the well-formed commands, each as that command. -/
def Obligations.DecodeExactlyInvertsEncode : Prop :=
  ∀ (w : Word) (i : Instr), decodeCommand w = .ok i ↔ i.wf = true ∧ encode i = w

/-- Words of R74 and R81, written out, with one command of every family. -/
def Obligations.DecodeReadsSpecWords : Prop :=
  decodeCommand 0b00000000000000000000000000010010 = .ok .gfmul ∧
  decodeCommand 0b00000000000000000000000000100001 = .ok .isbox ∧
  decodeCommand 0b00000000000000000000011100100100 = .ok (.rcon 7) ∧
  decodeCommand 0b00000000000000000000000000110110 = .ok .mixc ∧
  decodeCommand 0b00000000000000000000001100111000 = .ok (.ark 3) ∧
  decodeCommand 0b00000000000000000000000001000000 = .ok .keyexp ∧
  decodeCommand 0b00000000000000000000000001010001 = .ok .dec ∧
  decodeCommand 0x00000000 = .error .illegalOpcode ∧ decodeCommand 0x00001050 = .error .reservedField ∧
  decodeCommand 0x00000A24 = .error .indexRange

/-- R50 and R51: a platform address in the window reaches the core at its offset, every other address does not, and the
map of registers is one to one. -/
def Obligations.WindowAddressesReachRegisters : Prop :=
  (∀ (off : BitVec 9) (n : Nat) (v : Word),
    readAtAddress (Config.aesBase + off.toNat) n = some (.read off n) ∧
    writeAtAddress (Config.aesBase + off.toNat) n v = some (.write off n v)) ∧
  (∀ addr n : Nat, ∀ v : Word, (addr < Config.aesBase ∨ Config.aesBase + 0x200 ≤ addr) →
    readAtAddress addr n = none ∧ writeAtAddress addr n v = none) ∧
  Config.aesBase % 0x200 = 0 ∧
  (∀ (off : BitVec 9) (r : RegName), regAt off = some r ↔ r.offset = off)
end

