-- ==== Sys2Proof/Laws/Matrix.lean ====
section
/-! SUPPORT. The small lemmas of the matrix and of the byte lanes. -/

namespace Sys2Proof

/-- An entry of a built matrix. -/
@[simp] theorem Mat.at_build (f : Fin 4 → Fin 4 → Byte) (r c : Fin 4) : (Mat.build f).at r c = f r c := by
  simp [Mat.at, Mat.build]

/-- Two matrices with equal entries are equal. -/
theorem Mat.eq_of_at {m m' : Mat} (h : ∀ r c, m.at r c = m'.at r c) : m = m' := by
  refine Vector.ext fun r hr => Vector.ext fun c hc => ?_
  exact h ⟨r, hr⟩ ⟨c, hc⟩

/-- A matrix is built from its entries. -/
@[simp] theorem Mat.build_at (m : Mat) : (Mat.build fun r c => m.at r c) = m :=
  Mat.eq_of_at fun r c => by simp

namespace Machine

/-- Byte 0 of a packed Word is in bits 31:24 (R55). -/
@[simp] theorem byteLane_packWord_0 (a b c d : Byte) : byteLane (packWord a b c d) 0 = a := by
  refine BitVec.eq_of_getLsbD_eq fun i hi => ?_
  interval_cases i <;> simp [byteLane, packWord]

/-- Byte 1 of a packed Word is in bits 23:16 (R55). -/
@[simp] theorem byteLane_packWord_1 (a b c d : Byte) : byteLane (packWord a b c d) 1 = b := by
  refine BitVec.eq_of_getLsbD_eq fun i hi => ?_
  interval_cases i <;> simp [byteLane, packWord]

/-- Byte 2 of a packed Word is in bits 15:8 (R55). -/
@[simp] theorem byteLane_packWord_2 (a b c d : Byte) : byteLane (packWord a b c d) 2 = c := by
  refine BitVec.eq_of_getLsbD_eq fun i hi => ?_
  interval_cases i <;> simp [byteLane, packWord]

/-- Byte 3 of a packed Word is in bits 7:0 (R55). -/
@[simp] theorem byteLane_packWord_3 (a b c d : Byte) : byteLane (packWord a b c d) 3 = d := by
  refine BitVec.eq_of_getLsbD_eq fun i hi => ?_
  interval_cases i <;> simp [byteLane, packWord]

end Machine

end Sys2Proof
end

