-- ==== Sys2Proof/Laws/State.lean ====
section
/-! SUPPORT. For each update of State, one lemma per field, so that no later proof unfolds a record update. -/

namespace Sys2Proof.Machine

section
variable (s : State)

/-! Accept (R210). -/

@[simp] theorem accept_key (i : Instr) : (accept i s).key = s.key := rfl
@[simp] theorem accept_din (i : Instr) : (accept i s).din = s.din := rfl
@[simp] theorem accept_dout (i : Instr) : (accept i s).dout = s.dout := rfl
@[simp] theorem accept_opa (i : Instr) : (accept i s).opa = s.opa := rfl
@[simp] theorem accept_opb (i : Instr) : (accept i s).opb = s.opb := rfl
@[simp] theorem accept_res (i : Instr) : (accept i s).res = s.res := rfl
@[simp] theorem accept_busy (i : Instr) : (accept i s).busy = true := rfl
@[simp] theorem accept_done (i : Instr) : (accept i s).done = false := rfl
@[simp] theorem accept_keyValid (i : Instr) : (accept i s).keyValid = s.keyValid := rfl
@[simp] theorem accept_err (i : Instr) : (accept i s).err = s.err := rfl
@[simp] theorem accept_errCode (i : Instr) : (accept i s).errCode = s.errCode := rfl
@[simp] theorem accept_stateReg (i : Instr) : (accept i s).stateReg = s.stateReg := rfl
@[simp] theorem accept_rk (i : Instr) : (accept i s).rk = s.rk := rfl
@[simp] theorem accept_pend (i : Instr) : (accept i s).pend = some i := rfl
@[simp] theorem accept_inputs (i : Instr) : (accept i s).inputs = s.inputs := rfl
@[simp] theorem accept_resp (i : Instr) : (accept i s).resp = s.resp := rfl

/-! The end of a completion (R211). -/

@[simp] theorem retire_key : (retire s).key = s.key := rfl
@[simp] theorem retire_din : (retire s).din = s.din := rfl
@[simp] theorem retire_dout : (retire s).dout = s.dout := rfl
@[simp] theorem retire_opa : (retire s).opa = s.opa := rfl
@[simp] theorem retire_opb : (retire s).opb = s.opb := rfl
@[simp] theorem retire_res : (retire s).res = s.res := rfl
@[simp] theorem retire_busy : (retire s).busy = false := rfl
@[simp] theorem retire_done : (retire s).done = true := rfl
@[simp] theorem retire_keyValid : (retire s).keyValid = s.keyValid := rfl
@[simp] theorem retire_err : (retire s).err = s.err := rfl
@[simp] theorem retire_errCode : (retire s).errCode = s.errCode := rfl
@[simp] theorem retire_stateReg : (retire s).stateReg = s.stateReg := rfl
@[simp] theorem retire_rk : (retire s).rk = s.rk := rfl
@[simp] theorem retire_pend : (retire s).pend = none := rfl
@[simp] theorem retire_inputs : (retire s).inputs = s.inputs := rfl
@[simp] theorem retire_resp : (retire s).resp = s.resp := rfl

/-! Clearing the error record (R200). -/

@[simp] theorem clearError_key : (clearError s).key = s.key := rfl
@[simp] theorem clearError_din : (clearError s).din = s.din := rfl
@[simp] theorem clearError_dout : (clearError s).dout = s.dout := rfl
@[simp] theorem clearError_opa : (clearError s).opa = s.opa := rfl
@[simp] theorem clearError_opb : (clearError s).opb = s.opb := rfl
@[simp] theorem clearError_res : (clearError s).res = s.res := rfl
@[simp] theorem clearError_busy : (clearError s).busy = s.busy := rfl
@[simp] theorem clearError_done : (clearError s).done = s.done := rfl
@[simp] theorem clearError_keyValid : (clearError s).keyValid = s.keyValid := rfl
@[simp] theorem clearError_err : (clearError s).err = false := rfl
@[simp] theorem clearError_errCode : (clearError s).errCode = 0 := rfl
@[simp] theorem clearError_stateReg : (clearError s).stateReg = s.stateReg := rfl
@[simp] theorem clearError_rk : (clearError s).rk = s.rk := rfl
@[simp] theorem clearError_pend : (clearError s).pend = s.pend := rfl
@[simp] theorem clearError_inputs : (clearError s).inputs = s.inputs := rfl
@[simp] theorem clearError_resp : (clearError s).resp = s.resp := rfl

/-! The bus response (R62). -/

@[simp] theorem respond_key (k : RespKind) (d : Option Word) : (respond k d s).key = s.key := rfl
@[simp] theorem respond_din (k : RespKind) (d : Option Word) : (respond k d s).din = s.din := rfl
@[simp] theorem respond_dout (k : RespKind) (d : Option Word) : (respond k d s).dout = s.dout := rfl
@[simp] theorem respond_opa (k : RespKind) (d : Option Word) : (respond k d s).opa = s.opa := rfl
@[simp] theorem respond_opb (k : RespKind) (d : Option Word) : (respond k d s).opb = s.opb := rfl
@[simp] theorem respond_res (k : RespKind) (d : Option Word) : (respond k d s).res = s.res := rfl
@[simp] theorem respond_busy (k : RespKind) (d : Option Word) : (respond k d s).busy = s.busy := rfl
@[simp] theorem respond_done (k : RespKind) (d : Option Word) : (respond k d s).done = s.done := rfl
@[simp] theorem respond_keyValid (k : RespKind) (d : Option Word) : (respond k d s).keyValid = s.keyValid := rfl
@[simp] theorem respond_err (k : RespKind) (d : Option Word) : (respond k d s).err = s.err := rfl
@[simp] theorem respond_errCode (k : RespKind) (d : Option Word) : (respond k d s).errCode = s.errCode := rfl
@[simp] theorem respond_stateReg (k : RespKind) (d : Option Word) : (respond k d s).stateReg = s.stateReg := rfl
@[simp] theorem respond_rk (k : RespKind) (d : Option Word) : (respond k d s).rk = s.rk := rfl
@[simp] theorem respond_pend (k : RespKind) (d : Option Word) : (respond k d s).pend = s.pend := rfl
@[simp] theorem respond_inputs (k : RespKind) (d : Option Word) : (respond k d s).inputs = s.inputs := rfl
@[simp] theorem respond_resp (k : RespKind) (d : Option Word) : (respond k d s).resp = some ⟨k, d⟩ := rfl

/-! Reset (R220), but for `inputs`. -/

@[simp] theorem resetCore_key : (resetCore s).key = State.reset.key := rfl
@[simp] theorem resetCore_din : (resetCore s).din = State.reset.din := rfl
@[simp] theorem resetCore_dout : (resetCore s).dout = State.reset.dout := rfl
@[simp] theorem resetCore_opa : (resetCore s).opa = State.reset.opa := rfl
@[simp] theorem resetCore_opb : (resetCore s).opb = State.reset.opb := rfl
@[simp] theorem resetCore_res : (resetCore s).res = State.reset.res := rfl
@[simp] theorem resetCore_busy : (resetCore s).busy = State.reset.busy := rfl
@[simp] theorem resetCore_done : (resetCore s).done = State.reset.done := rfl
@[simp] theorem resetCore_keyValid : (resetCore s).keyValid = State.reset.keyValid := rfl
@[simp] theorem resetCore_err : (resetCore s).err = State.reset.err := rfl
@[simp] theorem resetCore_errCode : (resetCore s).errCode = State.reset.errCode := rfl
@[simp] theorem resetCore_stateReg : (resetCore s).stateReg = State.reset.stateReg := rfl
@[simp] theorem resetCore_rk : (resetCore s).rk = State.reset.rk := rfl
@[simp] theorem resetCore_pend : (resetCore s).pend = State.reset.pend := rfl
@[simp] theorem resetCore_inputs : (resetCore s).inputs = s.inputs := rfl
@[simp] theorem resetCore_resp : (resetCore s).resp = State.reset.resp := rfl

/-! Error recording (R196). -/

@[simp] theorem raiseError_key (e : ErrName) : (raiseError e s).key = s.key := by
  unfold raiseError; split <;> rfl
@[simp] theorem raiseError_din (e : ErrName) : (raiseError e s).din = s.din := by
  unfold raiseError; split <;> rfl
@[simp] theorem raiseError_dout (e : ErrName) : (raiseError e s).dout = s.dout := by
  unfold raiseError; split <;> rfl
@[simp] theorem raiseError_opa (e : ErrName) : (raiseError e s).opa = s.opa := by
  unfold raiseError; split <;> rfl
@[simp] theorem raiseError_opb (e : ErrName) : (raiseError e s).opb = s.opb := by
  unfold raiseError; split <;> rfl
@[simp] theorem raiseError_res (e : ErrName) : (raiseError e s).res = s.res := by
  unfold raiseError; split <;> rfl
@[simp] theorem raiseError_busy (e : ErrName) : (raiseError e s).busy = s.busy := by
  unfold raiseError; split <;> rfl
@[simp] theorem raiseError_done (e : ErrName) : (raiseError e s).done = s.done := by
  unfold raiseError; split <;> rfl
@[simp] theorem raiseError_keyValid (e : ErrName) : (raiseError e s).keyValid = s.keyValid := by
  unfold raiseError; split <;> rfl
@[simp] theorem raiseError_stateReg (e : ErrName) : (raiseError e s).stateReg = s.stateReg := by
  unfold raiseError; split <;> rfl
@[simp] theorem raiseError_rk (e : ErrName) : (raiseError e s).rk = s.rk := by
  unfold raiseError; split <;> rfl
@[simp] theorem raiseError_pend (e : ErrName) : (raiseError e s).pend = s.pend := by
  unfold raiseError; split <;> rfl
@[simp] theorem raiseError_inputs (e : ErrName) : (raiseError e s).inputs = s.inputs := by
  unfold raiseError; split <;> rfl
@[simp] theorem raiseError_resp (e : ErrName) : (raiseError e s).resp = s.resp := by
  unfold raiseError; split <;> rfl

/-- An error leaves ERR = 1. -/
@[simp] theorem raiseError_err (e : ErrName) : (raiseError e s).err = true := by
  unfold raiseError; split <;> simp_all

/-- ERRCODE keeps the first error since the last clear. -/
theorem raiseError_errCode (e : ErrName) :
    (raiseError e s).errCode = if s.err then s.errCode else e.code := by
  unfold raiseError; split <;> rfl

/-! A STATUS write (R61). -/

@[simp] theorem writeStatus_key (v : Word) : (writeStatus v s).key = s.key := by
  unfold writeStatus; split <;> rfl
@[simp] theorem writeStatus_din (v : Word) : (writeStatus v s).din = s.din := by
  unfold writeStatus; split <;> rfl
@[simp] theorem writeStatus_dout (v : Word) : (writeStatus v s).dout = s.dout := by
  unfold writeStatus; split <;> rfl
@[simp] theorem writeStatus_opa (v : Word) : (writeStatus v s).opa = s.opa := by
  unfold writeStatus; split <;> rfl
@[simp] theorem writeStatus_opb (v : Word) : (writeStatus v s).opb = s.opb := by
  unfold writeStatus; split <;> rfl
@[simp] theorem writeStatus_res (v : Word) : (writeStatus v s).res = s.res := by
  unfold writeStatus; split <;> rfl
@[simp] theorem writeStatus_busy (v : Word) : (writeStatus v s).busy = s.busy := by
  unfold writeStatus; split <;> rfl
@[simp] theorem writeStatus_done (v : Word) : (writeStatus v s).done = s.done := by
  unfold writeStatus; split <;> rfl
@[simp] theorem writeStatus_keyValid (v : Word) : (writeStatus v s).keyValid = s.keyValid := by
  unfold writeStatus; split <;> rfl
@[simp] theorem writeStatus_stateReg (v : Word) : (writeStatus v s).stateReg = s.stateReg := by
  unfold writeStatus; split <;> rfl
@[simp] theorem writeStatus_rk (v : Word) : (writeStatus v s).rk = s.rk := by
  unfold writeStatus; split <;> rfl
@[simp] theorem writeStatus_pend (v : Word) : (writeStatus v s).pend = s.pend := by
  unfold writeStatus; split <;> rfl
@[simp] theorem writeStatus_inputs (v : Word) : (writeStatus v s).inputs = s.inputs := by
  unfold writeStatus; split <;> rfl
@[simp] theorem writeStatus_resp (v : Word) : (writeStatus v s).resp = s.resp := by
  unfold writeStatus; split <;> rfl

/-! A register write (R57): what it never changes. -/

@[simp] theorem writeReg_dout (r : RegName) (v : Word) : (writeReg r v s).dout = s.dout := by
  cases r <;> simp [writeReg]
@[simp] theorem writeReg_res (r : RegName) (v : Word) : (writeReg r v s).res = s.res := by
  cases r <;> simp [writeReg]
@[simp] theorem writeReg_busy (r : RegName) (v : Word) : (writeReg r v s).busy = s.busy := by
  cases r <;> simp [writeReg]
@[simp] theorem writeReg_done (r : RegName) (v : Word) : (writeReg r v s).done = s.done := by
  cases r <;> simp [writeReg]
@[simp] theorem writeReg_stateReg (r : RegName) (v : Word) : (writeReg r v s).stateReg = s.stateReg := by
  cases r <;> simp [writeReg]
@[simp] theorem writeReg_rk (r : RegName) (v : Word) : (writeReg r v s).rk = s.rk := by
  cases r <;> simp [writeReg]
@[simp] theorem writeReg_pend (r : RegName) (v : Word) : (writeReg r v s).pend = s.pend := by
  cases r <;> simp [writeReg]
@[simp] theorem writeReg_inputs (r : RegName) (v : Word) : (writeReg r v s).inputs = s.inputs := by
  cases r <;> simp [writeReg]
@[simp] theorem writeReg_resp (r : RegName) (v : Word) : (writeReg r v s).resp = s.resp := by
  cases r <;> simp [writeReg]

/-! The part a host access cannot change (R59, R69). -/

@[simp] theorem dataView_raiseError (e : ErrName) : dataView (raiseError e s) = dataView s := by
  unfold raiseError; split <;> rfl
@[simp] theorem dataView_respond (k : RespKind) (d : Option Word) : dataView (respond k d s) = dataView s := rfl
@[simp] theorem dataView_clearError : dataView (clearError s) = dataView s := rfl
@[simp] theorem dataView_writeStatus (v : Word) : dataView (writeStatus v s) = dataView s := by
  unfold writeStatus; split <;> rfl

end

end Sys2Proof.Machine
end

