-- ==== Sys2Proof/Laws/Ops.lean ====
section
/-! SUPPORT. What each shared operation does, said once: the life of a command, a host access, a turn. -/

namespace Sys2Proof.Machine

/-! ### The life of a command -/

/-- An idle core rejects a command with the error of its first failing check (R197, R199). -/
theorem command_idle_reject {i : Instr} {check : State → Option ErrName} {effect : State → Result} {s : State}
    {e : ErrName} (hb : s.busy = false) (hc : check s = some e) :
    command i check effect s = .next (raiseError e s) := by
  simp [command, hb, hc]

/-- An idle core accepts a command that passes its checks (R210). -/
theorem command_idle_accept {i : Instr} {check : State → Option ErrName} {effect : State → Result} {s : State}
    (hb : s.busy = false) (hc : check s = none) : command i check effect s = .next (accept i s) := by
  simp [command, hb, hc]

/-- A core busy with this very command completes it (R211). -/
theorem command_complete {i : Instr} {check : State → Option ErrName} {effect : State → Result} {s t : State}
    (hb : s.busy = true) (hp : s.pend = some i) (he : effect s = .next t) :
    command i check effect s = .next (retire t) := by
  simp [command, hb, hp, completeWith, he]

/-- A core busy with another command turns this one away (R59). -/
theorem command_turned_away {i : Instr} {check : State → Option ErrName} {effect : State → Result} {s : State}
    (hb : s.busy = true) (hp : s.pend ≠ some i) : command i check effect s = .next (raiseError .busy s) := by
  simp [command, hb, hp]

/-- Everything a command can do when it answers a next state. -/
theorem command_cases {i : Instr} {check : State → Option ErrName} {effect : State → Result} {s t : State}
    (h : command i check effect s = .next t) :
    (s.busy = false ∧ ∃ e, check s = some e ∧ t = raiseError e s) ∨
    (s.busy = false ∧ check s = none ∧ t = accept i s) ∨
    (s.busy = true ∧ s.pend = some i ∧ ∃ u, effect s = .next u ∧ t = retire u) ∨
    (s.busy = true ∧ s.pend ≠ some i ∧ t = raiseError .busy s) := by
  unfold command at h
  split at h
  · rename_i hb
    split at h
    · rename_i hp
      unfold completeWith at h
      split at h
      · rename_i u hu
        cases h
        exact .inr (.inr (.inl ⟨hb, hp, u, hu, rfl⟩))
      · cases h
      · cases h
    · rename_i hp
      cases h
      exact .inr (.inr (.inr ⟨hb, hp, rfl⟩))
  · rename_i hb
    have hb : s.busy = false := by simpa using hb
    split at h
    · rename_i e he
      cases h
      exact .inl ⟨hb, e, he, rfl⟩
    · rename_i he
      cases h
      exact .inr (.inl ⟨hb, he, rfl⟩)

/-- The check that each meaning hands to `command`. -/
def checkOf (i : Instr) (s : State) : Option ErrName :=
  match i with
  | .gfadd | .gfmul => checkBytesAB s
  | .gfxt | .sbox | .isbox => checkByteA s
  | .rotw | .subw | .ldst | .stst | .subb | .isubb | .shr | .ishr | .mixc | .imixc | .keyexp => noCheck s
  | .rcon i => checkIndex 9 i
  | .ark k => (checkIndex 10 k).or (checkKeyValid s)
  | .enc | .dec => checkKeyValid s

/-- The effect that each meaning hands to `command`. -/
def effectOf (i : Instr) (t : State) : Result :=
  match i with
  | .gfadd => writeRes (zext32 (gfAdd (byteA t) (byteB t))) t
  | .gfxt => writeRes (zext32 (xtimes (byteA t))) t
  | .gfmul => writeRes (zext32 (multiply (byteA t) (byteB t))) t
  | .sbox => writeRes (zext32 (sbox (byteA t))) t
  | .isbox => writeRes (zext32 (invSbox (byteA t))) t
  | .rotw => writeRes (rotWord t.opa) t
  | .subw => writeRes (subWord t.opa) t
  | .rcon i =>
    match rconTable[i.toNat]? with
    | some c => writeRes (zext32 c) t
    | none => .fault .indexDoesNotExist
  | .ldst => writeState (fromBlock (dinBytes t)) t
  | .stst => .next { t with dout := wordsOf (toBlock t.stateReg) }
  | .subb => writeState (subBytes t.stateReg) t
  | .isubb => writeState (invSubBytes t.stateReg) t
  | .shr => writeState (shiftRows t.stateReg) t
  | .ishr => writeState (invShiftRows t.stateReg) t
  | .mixc => writeState (mixColumns t.stateReg) t
  | .imixc => writeState (invMixColumns t.stateReg) t
  | .ark k =>
    match t.rk[k.toNat]? with
    | some roundKey => writeState (addRoundKey t.stateReg roundKey) t
    | none => .fault .indexDoesNotExist
  | .keyexp => .next { t with rk := keyExpansion (keyBytes t), keyValid := true }
  | .enc => writeBlock (cipher (dinBytes t) t.rk) t
  | .dec => writeBlock (invCipher (dinBytes t) t.rk) t

/-- Every meaning is `command` over its check and its effect. -/
theorem exec_eq_command (i : Instr) (s : State) : exec i s = command i (checkOf i) (effectOf i) s := by
  cases i <;> rfl

/-- An effect changes only RES, STATE, DOUT, RK and KEY_VALID, each only for the commands the spec names. -/
theorem effectOf_frame {i : Instr} {s u : State} (h : effectOf i s = .next u) :
    u = { s with res := u.res, stateReg := u.stateReg, dout := u.dout, rk := u.rk, keyValid := u.keyValid } ∧
    (i.writesRes = false → u.res = s.res) ∧ (i.writesState = false → u.stateReg = s.stateReg) ∧
    (i.writesDout = false → u.dout = s.dout) ∧
    (i ≠ .keyexp → u.rk = s.rk ∧ u.keyValid = s.keyValid) ∧
    (i = .keyexp → u.rk = keyExpansion (keyBytes s) ∧ u.keyValid = true) := by
  cases i <;> simp only [effectOf, writeRes, writeState, writeBlock] at h <;>
    first
    | (cases h; simp [Instr.writesRes, Instr.writesState, Instr.writesDout])
    | (split at h <;> cases h; simp [Instr.writesRes, Instr.writesState, Instr.writesDout])

/-- The effect of a command that passed its checks always takes place. -/
theorem effectOf_next_of_accepted {i : Instr} {s : State} (h : Accepted i s) : ∃ u, effectOf i s = .next u := by
  cases i <;> simp only [effectOf, writeRes, writeState, writeBlock] <;>
    first
    | exact ⟨_, rfl⟩
    | (have hi := h.indexInRange
       simp only [Instr.wf, decide_eq_true_eq] at hi
       rw [Vector.getElem?_eq_getElem (by omega)]
       exact ⟨_, rfl⟩)

/-- A command whose checks pass is accepted in the sense of the invariant. -/
theorem accepted_of_checkOf {i : Instr} {s : State} (hw : i.wf = true) (h : checkOf i s = none) : Accepted i s := by
  refine ⟨hw, ?_, ?_, ?_⟩ <;> cases i <;>
    simp_all [checkOf, checkByteA, checkBytesAB, checkKeyValid, checkIndex, Instr.readsByteA, Instr.readsByteB,
      Instr.needsKey, Instr.wf]

/-! ### The decoder -/

/-- The decoder answers well-formed commands only. -/
theorem decodeCommand_wf {w : Word} {i : Instr} (h : decodeCommand w = .ok i) : i.wf = true := by
  unfold decodeCommand at h
  split at h
  · cases h
  · split at h
    · cases h
    · split at h
      · cases h
      · split at h
        · rename_i hw
          cases h
          exact hw
        · cases h

/-! ### A host access -/

/-- Everything a host access can do. It never stops. -/
theorem hostAccess_cases (a : Access) (s : State) :
    (∃ e d, hostAccess a s = .next (busError e d s)) ∨
    (∃ r off, a = .read off 4 ∧ regAt off = some r ∧
      hostAccess a s = .next (respond .okay (some (readReg r s)) s)) ∨
    (∃ r off v, a = .write off 4 v ∧ regAt off = some r ∧ r ≠ .cmd ∧ readOnly r = false ∧
      (lockedWhileBusy r = true → s.busy = false) ∧
      hostAccess a s = .next (respond .okay none (writeReg r v s))) ∨
    (∃ off v, a = .write off 4 v ∧ regAt off = some .cmd ∧ s.busy = false ∧
      hostAccess a s = presentCommand v (respond .okay none s)) := by
  cases a with
  | read off n =>
    simp only [hostAccess, busRead, accessed]
    by_cases hn : n = 4
    · subst hn
      cases hr : regAt off with
      | none => exact .inl ⟨.badAccess, some 0, by simp⟩
      | some r => exact .inr (.inl ⟨r, off, rfl, hr, by simp⟩)
    · exact .inl ⟨.badAccess, some 0, by simp [hn]⟩
  | write off n v =>
    simp only [hostAccess, busWrite, accessed]
    by_cases hn : n = 4
    · subst hn
      cases hr : regAt off with
      | none => exact .inl ⟨.badAccess, none, by simp⟩
      | some r =>
        by_cases hro : readOnly r = true
        · exact .inl ⟨.badAccess, none, by simp [hro]⟩
        · by_cases hl : (lockedWhileBusy r && s.busy) = true
          · exact .inl ⟨.busy, none, by simp [hro, hl]⟩
          · have hro' : readOnly r = false := by simpa using hro
            have hl' : lockedWhileBusy r = true → s.busy = false := by
              intro h1
              simpa [h1] using hl
            by_cases hcmd : r = .cmd
            · subst hcmd
              exact .inr (.inr (.inr ⟨off, v, rfl, hr, hl' rfl, by simp [hro', hl' rfl]⟩))
            · exact .inr (.inr (.inl ⟨r, off, v, rfl, hr, hcmd, hro', hl', by simp [hro', hl, hcmd]⟩))
    · exact .inl ⟨.badAccess, none, by simp [hn]⟩

/-- What presenting a command word to an idle core does. It never stops. -/
theorem presentCommand_idle {w : Word} {s : State} (hb : s.busy = false) :
    (∃ e, presentCommand w s = .next (raiseError e s)) ∨
    (∃ i, decodeCommand w = .ok i ∧ Accepted i s ∧ presentCommand w s = .next (accept i s)) := by
  unfold presentCommand
  cases hd : decodeCommand w with
  | error e => exact .inl ⟨e, rfl⟩
  | ok i =>
    simp only [exec_eq_command]
    cases hc : checkOf i s with
    | none =>
      exact .inr ⟨i, rfl, accepted_of_checkOf (decodeCommand_wf hd) hc, command_idle_accept hb hc⟩
    | some e => exact .inl ⟨e, command_idle_reject hb hc⟩

/-! ### A turn -/

/-- The core's turn while it is busy with `i` is the completion of `i` (R211). -/
theorem coreTurn_complete {i : Instr} {s u : State} (hb : s.busy = true) (hp : s.pend = some i)
    (he : effectOf i s = .next u) : coreTurn s = .next (retire u) := by
  simp [coreTurn, hb, hp, exec_eq_command, command_complete hb hp he]

/-- The core's turn while it is idle changes nothing (log entry 2). -/
theorem coreTurn_idle {s : State} (hb : s.busy = false) : coreTurn s = .next s := by
  simp [coreTurn, hb]

end Sys2Proof.Machine
end

