-- ==== Sys2Proof/Laws/PerInstr.lean ====
section
/-! SUPPORT. Facts stated per command. -/

namespace Sys2Proof.Laws.OpcodeFields

/-- The encoded word of a command has its opcode in OPC, its index in IDX and 0 in RSV (R70, R74). -/
def Statement (i : Instr) : Prop :=
  opcField (encode i) = i.opc ∧ idxField (encode i) = i.idx ∧ rsvField (encode i) = 0

theorem gfadd : Statement .gfadd := by unfold Statement; decide
theorem gfxt : Statement .gfxt := by unfold Statement; decide
theorem gfmul : Statement .gfmul := by unfold Statement; decide
theorem sbox : Statement .sbox := by unfold Statement; decide
theorem isbox : Statement .isbox := by unfold Statement; decide
theorem rotw : Statement .rotw := by unfold Statement; decide
theorem subw : Statement .subw := by unfold Statement; decide
theorem rcon (k : BitVec 4) : Statement (.rcon k) := by
  revert k; unfold Statement; decide
theorem ldst : Statement .ldst := by unfold Statement; decide
theorem stst : Statement .stst := by unfold Statement; decide
theorem subb : Statement .subb := by unfold Statement; decide
theorem isubb : Statement .isubb := by unfold Statement; decide
theorem shr : Statement .shr := by unfold Statement; decide
theorem ishr : Statement .ishr := by unfold Statement; decide
theorem mixc : Statement .mixc := by unfold Statement; decide
theorem imixc : Statement .imixc := by unfold Statement; decide
theorem ark (k : BitVec 4) : Statement (.ark k) := by
  revert k; unfold Statement; decide
theorem keyexp : Statement .keyexp := by unfold Statement; decide
theorem enc : Statement .enc := by unfold Statement; decide
theorem dec : Statement .dec := by unfold Statement; decide

end Sys2Proof.Laws.OpcodeFields
end

