-- ==== Sys2Proof/Laws/Step.lean ====
section
/-! SUPPORT. Everything one step can do, said once. -/

namespace Sys2Proof.Machine

/-- Everything the core's turn can do when it answers a next state. -/
theorem coreTurn_cases {s t : State} (h : coreTurn s = .next t) :
    (s.busy = false ∧ t = s) ∨
    (s.busy = true ∧ ∃ i u, s.pend = some i ∧ effectOf i s = .next u ∧ t = retire u) := by
  unfold coreTurn at h
  split at h
  · rename_i hb
    split at h
    · rename_i i hp
      rw [exec_eq_command] at h
      obtain ⟨hb', -⟩ | ⟨hb', -⟩ | ⟨-, -, u, hu, ht⟩ | ⟨-, hne, -⟩ := command_cases h
      · simp_all
      · simp_all
      · exact .inr ⟨hb, i, u, hp, hu, ht⟩
      · exact absurd hp hne
    · cases h
  · rename_i hb
    cases h
    exact .inl ⟨by simpa using hb, rfl⟩

/-- The state in which a turn acts: the turn is used up and no access has been answered yet. -/
def begun (s : State) : State := { s with inputs := s.inputs.tail, resp := none }

/-- A step is the core's turn, where `inputs` says so or is empty; a host access; or reset. -/
theorem step_cases (s : State) :
    ((s.inputs = [] ∨ ∃ rest, s.inputs = .core :: rest) ∧ step s = coreTurn (begun s)) ∨
    (∃ a rest, s.inputs = .host a :: rest ∧ step s = hostAccess a (begun s)) ∨
    (∃ rest, s.inputs = .reset :: rest ∧ step s = .next (resetCore (begun s))) := by
  unfold step nextTurn begun
  split
  · rename_i h
    exact .inl ⟨.inl h, by simp [h]⟩
  · rename_i rest h
    exact .inl ⟨.inr ⟨rest, h⟩, by simp [h]⟩
  · rename_i a rest h
    exact .inr (.inl ⟨a, rest, h, by simp [h]⟩)
  · rename_i rest h
    exact .inr (.inr ⟨rest, h, by simp [h, resetCore]⟩)

/-- What a host access can make of a state when it answers a next state: an error, a read, a register write, a rejected
command word or an accepted command. -/
theorem hostAccess_next_cases {a : Access} {s t : State} (h : hostAccess a s = .next t) :
    (∃ e d, t = busError e d s) ∨
    (∃ r off, a = .read off 4 ∧ regAt off = some r ∧ t = respond .okay (some (readReg r s)) s) ∨
    (∃ r off v, a = .write off 4 v ∧ regAt off = some r ∧ r ≠ .cmd ∧ readOnly r = false ∧
      (lockedWhileBusy r = true → s.busy = false) ∧ t = respond .okay none (writeReg r v s)) ∨
    (∃ off v e, a = .write off 4 v ∧ regAt off = some .cmd ∧ s.busy = false ∧
      t = raiseError e (respond .okay none s)) ∨
    (∃ off v i, a = .write off 4 v ∧ regAt off = some .cmd ∧ s.busy = false ∧ decodeCommand v = .ok i ∧
      Accepted i s ∧ t = accept i (respond .okay none s)) := by
  obtain ⟨e, d, he⟩ | ⟨r, off, ha, hr, he⟩ | ⟨r, off, v, ha, hr, h1, h2, h3, he⟩ | ⟨off, v, ha, hr, hb, he⟩ :=
    hostAccess_cases a s
  · rw [he] at h; cases h
    exact .inl ⟨e, d, rfl⟩
  · rw [he] at h; cases h
    exact .inr (.inl ⟨r, off, ha, hr, rfl⟩)
  · rw [he] at h; cases h
    exact .inr (.inr (.inl ⟨r, off, v, ha, hr, h1, h2, h3, rfl⟩))
  · have hb' : (respond .okay none s).busy = false := hb
    obtain ⟨e, hp⟩ | ⟨i, hd, hacc, hp⟩ := presentCommand_idle (w := v) hb'
    · rw [he, hp] at h; cases h
      exact .inr (.inr (.inr (.inl ⟨off, v, e, ha, hr, hb, rfl⟩)))
    · rw [he, hp] at h; cases h
      exact .inr (.inr (.inr (.inr ⟨off, v, i, ha, hr, hb, hd,
        ⟨hacc.indexInRange, hacc.byteA, hacc.byteB, hacc.key⟩, rfl⟩)))

end Sys2Proof.Machine
end

