-- ==== Sys2Proof/Machine/HostProgram.lean ====
section
/-! DEFINITION. Host programs (30_encoding.md R81-R83, 92_eei_decisions.md D33, D35): the statements wr, rd and bnz, the pseudo-instructions' expansions, and how a program drives the machine. The host is outside the core: nothing here is state of the core. Log entry 13. -/

namespace Sys2Proof.Machine

/-- `cmd M`: `wr CMD, enc(M)` (R83). -/
def HostStmt.cmd (i : Instr) : List HostStmt := [.wr .cmd (encode i)]

/-- `wait`, placed as statements `here` and `here + 1` of its program: `L: rd STATUS` then `bnz STATUS, 0x1, L` (R83). -/
def HostStmt.wait (here : Nat) : List HostStmt := [.rd .status, .bnz .status 0x1 here]

/-- `clrerr`: `wr STATUS, 0x00000008` (R83). -/
def HostStmt.clrerr : List HostStmt := [.wr .status 0x8]

/-- `ldkey k0,k1,k2,k3` (R83). -/
def HostStmt.ldkey (k0 k1 k2 k3 : Word) : List HostStmt :=
  [.wr (.key 0) k0, .wr (.key 1) k1, .wr (.key 2) k2, .wr (.key 3) k3]

/-- `ldin d0,d1,d2,d3` (R83). -/
def HostStmt.ldin (d0 d1 d2 d3 : Word) : List HostStmt :=
  [.wr (.din 0) d0, .wr (.din 1) d1, .wr (.din 2) d2, .wr (.din 3) d3]

/-- A host program in the middle of its run: the statements, the one to run next, the last value read from each register
name, and the machine it drives. -/
structure HostRun where
  prog : List HostStmt
  pos : Nat
  seen : List (RegName × Word)
  machine : State
  deriving DecidableEq, Repr

/-- The start of a run: the first statement, nothing read yet. -/
def HostRun.start (prog : List HostStmt) (s : State) : HostRun := ⟨prog, 0, [], s⟩

/-- The machine takes one turn, and the run goes on as `k` says. -/
def HostRun.drive (h : HostRun) (t : Turn) (k : State → HostRun) : Host.Outcome HostRun Fault Refusal :=
  match step { h.machine with inputs := t :: h.machine.inputs } with
  | .next m => .next (k m)
  | .fault f => .fault f
  | .refused r => .refused r

/-- The last value read from a register name, after a read of `r` that returned `v`. -/
def HostRun.note (h : HostRun) (r : RegName) (v : Word) : List (RegName × Word) :=
  (r, v) :: h.seen.filter fun p => p.1 ≠ r

/-- The host runs its next statement (R82): a `wr` is one bus write and an `rd` one bus read, of 4 bytes; a `bnz` is no
access. There is none to run at the program's end, nor where a `bnz` names a register that was never read. -/
def HostRun.hostTurn (h : HostRun) : Option (Host.Outcome HostRun Fault Refusal) :=
  match h.prog[h.pos]? with
  | none => none
  | some (.wr r v) =>
    some (h.drive (.host (.write r.offset 4 v)) fun m => { h with pos := h.pos + 1, machine := m })
  | some (.rd r) =>
    some (h.drive (.host (.read r.offset 4)) fun m =>
      { h with
        pos := h.pos + 1
        seen := (m.resp.bind BusResp.data).elim h.seen (h.note r)
        machine := m })
  | some (.bnz r mask target) =>
    match h.seen.lookup r with
    | none => none
    | some v => some (.next { h with pos := if v &&& mask ≠ 0 then target else h.pos + 1 })

/-- The core takes a turn between two statements of the host (R212). -/
def HostRun.coreTurn (h : HostRun) : Host.Outcome HostRun Fault Refusal :=
  h.drive .core fun m => { h with machine := m }

/-- "a program has ended when its last statement has executed and BUSY = 0" (D35). -/
def HostRun.ended (h : HostRun) : Bool := decide (h.prog.length ≤ h.pos) && !h.machine.busy

end Sys2Proof.Machine
end

