-- ==== Sys2Proof/Tests/Slice0.lean ====
section
/-! SUPPORT. The model's own tests. Expected results are the spec's: the vectors of 95_test_vectors.md and the examples of the rules. After them, for each statement that has hypotheses, a witness that meets them. -/

namespace Sys2Proof.Tests

open Sys2Proof Sys2Proof.Machine Sys2Proof.Claims

/-- The state after reset with two operand registers set. -/
def ops (a b : Word) : State := { State.reset with opa := a, opb := b }

/-- The state after reset with STATE set. -/
def working (n : Nat) : State := { State.reset with stateReg := hexMat n }

/-- `s` busy with command `i`. -/
def busyWith (i : Instr) (s : State) : State := { s with busy := true, pend := some i }

/-- A valid key of zeros and its schedule. -/
def keyed : State := { State.reset with keyValid := true, rk := keyExpansion (hexBlock 0) }

/-- A schedule that is cheap to evaluate, marked valid: not a reachable state. -/
def marked : State := { State.reset with keyValid := true }

/-- `s` with turns to come. -/
def facing (ts : List Turn) (s : State) : State := { s with inputs := ts }

/-- RES of a next state. -/
def resOf : Result → Option Word
  | .next t => some t.res
  | .fault _ => none
  | .refused _ => none

/-- STATE of a next state. -/
def matOf : Result → Option Mat
  | .next t => some t.stateReg
  | .fault _ => none
  | .refused _ => none

/-- DOUT of a next state. -/
def doutOf : Result → Option Quad
  | .next t => some t.dout
  | .fault _ => none
  | .refused _ => none

/-- STATUS and the response of a next state. -/
def seen : Result → Option (Word × Option BusResp)
  | .next t => some (readReg .status t, t.resp)
  | .fault _ => none
  | .refused _ => none

/-! ### Well-formedness: an ill-formed term for each check -/

theorem test_wf_rcon : Instr.wf (.rcon 9) = true ∧ Instr.wf (.rcon 10) = false := by decide
theorem test_wf_ark : Instr.wf (.ark 10) = true ∧ Instr.wf (.ark 11) = false := by decide
theorem test_wf_bnz : HostStmt.wf 2 (.bnz .status 1 2) = true ∧ HostStmt.wf 2 (.bnz .status 1 3) = false := by decide

/-! ### Decoding: words written out from R74 -/

theorem test_decode_gf256 :
    decodeTableWord 32 0b00000000000000000000000000010000 = some (.gfadd) ∧
    decodeTableWord 32 0b00000000000000000000000000010001 = some (.gfxt) ∧
    decodeTableWord 32 0b00000000000000000000000000010010 = some (.gfmul) := by decide
theorem test_decode_sbox_word :
    decodeTableWord 32 0b00000000000000000000000000100000 = some (.sbox) ∧
    decodeTableWord 32 0b00000000000000000000000000100001 = some (.isbox) ∧
    decodeTableWord 32 0b00000000000000000000000000100010 = some (.rotw) ∧
    decodeTableWord 32 0b00000000000000000000000000100011 = some (.subw) ∧
    decodeTableWord 32 0b00000000000000000000100100100100 = some (.rcon 9) := by decide
theorem test_decode_round_ops :
    decodeTableWord 32 0b00000000000000000000000000110000 = some (.ldst) ∧
    decodeTableWord 32 0b00000000000000000000000000110001 = some (.stst) ∧
    decodeTableWord 32 0b00000000000000000000000000110010 = some (.subb) ∧
    decodeTableWord 32 0b00000000000000000000000000110011 = some (.isubb) ∧
    decodeTableWord 32 0b00000000000000000000000000110100 = some (.shr) ∧
    decodeTableWord 32 0b00000000000000000000000000110101 = some (.ishr) ∧
    decodeTableWord 32 0b00000000000000000000000000110110 = some (.mixc) ∧
    decodeTableWord 32 0b00000000000000000000000000110111 = some (.imixc) ∧
    decodeTableWord 32 0b00000000000000000000101000111000 = some (.ark 10) := by decide
theorem test_decode_key_cipher :
    decodeTableWord 32 0b00000000000000000000000001000000 = some (.keyexp) ∧
    decodeTableWord 32 0b00000000000000000000000001010000 = some (.enc) ∧
    decodeTableWord 32 0b00000000000000000000000001010001 = some (.dec) := by decide

theorem test_decode_rejects :
    decodeCommand 0x00000013 = .error .illegalOpcode ∧ decodeCommand 0x00000000 = .error .illegalOpcode ∧
    decodeCommand 0x00001012 = .error .reservedField ∧ decodeCommand 0x00000112 = .error .reservedField ∧
    decodeCommand 0x00000A24 = .error .indexRange ∧ decodeCommand 0x00000B38 = .error .indexRange := by decide

theorem test_spelling :
    Instr.spelling (.ark 3) = "ARK 3" ∧ encode (.ark 3) = 0x00000338 ∧ Instr.spelling .enc = "ENC" ∧
    encode .enc = 0x00000050 ∧ Instr.spelling (.ark 10) = "ARK 10" ∧ RegName.spelling (.rkw 43) = "RKW43" := by decide

/-! ### The commands' results: 95_test_vectors.md L2.1 to L2.5 -/

theorem test_gfadd : resOf (exec (.gfadd) (busyWith (.gfadd) (ops 0x57 0x83))) = some 0x000000D4 := by decide
theorem test_gfxt_ignores_opb : resOf (exec (.gfxt) (busyWith (.gfxt) (ops 0x57 0xFFFFFFFF))) = some 0x000000AE := by decide
theorem test_gfxt_reduces : resOf (exec (.gfxt) (busyWith (.gfxt) (ops 0x80 0))) = some 0x0000001B := by decide
theorem test_gfmul : resOf (exec (.gfmul) (busyWith (.gfmul) (ops 0x57 0x83))) = some 0x000000C1 := by decide
theorem test_gfmul_same_operand : resOf (exec (.gfmul) (busyWith (.gfmul) (ops 0x80 0x80))) = some 0x0000009A := by decide
theorem test_sbox : resOf (exec (.sbox) (busyWith (.sbox) (ops 0x53 0))) = some 0x000000ED := by decide
theorem test_sbox_last : resOf (exec (.sbox) (busyWith (.sbox) (ops 0xFF 0))) = some 0x00000016 := by decide
theorem test_isbox : resOf (exec (.isbox) (busyWith (.isbox) (ops 0xED 0))) = some 0x00000053 := by decide
theorem test_isbox_zero : resOf (exec (.isbox) (busyWith (.isbox) (ops 0 0))) = some 0x00000052 := by decide
theorem test_rotw : resOf (exec (.rotw) (busyWith (.rotw) (ops 0x09CF4F3C 0))) = some 0xCF4F3C09 := by decide
theorem test_subw : resOf (exec (.subw) (busyWith (.subw) (ops 0xAABBCCDD 0))) = some 0xACEA4BC1 := by decide
theorem test_rcon_first : resOf (exec (.rcon 0) (busyWith (.rcon 0) (ops 0xFFFFFFFF 0))) = some 0x00000001 := by decide
theorem test_rcon_last : resOf (exec (.rcon 9) (busyWith (.rcon 9) (ops 0xFFFFFFFF 0))) = some 0x00000036 := by decide
theorem test_ldst :
    matOf (exec .ldst (busyWith .ldst { State.reset with din := #v[0x00010203, 0x04050607, 0x08090A0B, 0x0C0D0E0F] })) =
      some #v[#v[0x00, 0x04, 0x08, 0x0C], #v[0x01, 0x05, 0x09, 0x0D], #v[0x02, 0x06, 0x0A, 0x0E], #v[0x03, 0x07, 0x0B, 0x0F]] := by
  decide +kernel
theorem test_stst :
    doutOf (exec .stst (busyWith .stst (working 0x000102030405060708090a0b0c0d0e0f))) =
      some #v[0x00010203, 0x04050607, 0x08090A0B, 0x0C0D0E0F] := by decide +kernel
theorem test_subb : matOf (exec .subb (busyWith .subb (working 0x193de3bea0f4e22b9ac68d2ae9f84808))) = some (hexMat 0xd42711aee0bf98f1b8b45de51e415230) := by
  decide +kernel
theorem test_isubb : matOf (exec .isubb (busyWith .isubb (working 0))) = some (hexMat 0x52525252525252525252525252525252) := by
  decide +kernel
theorem test_shr : matOf (exec .shr (busyWith .shr (working 0x000102030405060708090a0b0c0d0e0f))) = some (hexMat 0x00050a0f04090e03080d02070c01060b) := by
  decide +kernel
theorem test_ishr : matOf (exec .ishr (busyWith .ishr (working 0x000102030405060708090a0b0c0d0e0f))) = some (hexMat 0x000d0a0704010e0b0805020f0c090603) := by
  decide +kernel
theorem test_mixc : matOf (exec .mixc (busyWith .mixc (working 0xdb135345f20a225c01010101c6c6c6c6))) = some (hexMat 0x8e4da1bc9fdc589d01010101c6c6c6c6) := by
  decide +kernel
theorem test_imixc : matOf (exec .imixc (busyWith .imixc (working 0x046681e5e0cb199a48f8d37a2806264c))) = some (hexMat 0xd4bf5d30e0b452aeb84111f11e2798e5) := by
  decide +kernel
theorem test_ark_last :
    matOf (exec (.ark 10) (busyWith (.ark 10) { marked with rk := State.reset.rk.set 10 (hexMat 0x1), stateReg := hexMat 0x3 })) =
      some (hexMat 0x2) := by decide +kernel
theorem test_keyexp_zero_key :
    toBlock (keyExpansion (hexBlock 0))[10] = hexBlock 0xb4ef5bcb3e92e21123e951cf6f8f188e := by decide +kernel
theorem test_keyexp_kat :
    rkWord (keyExpansion (bytesOf #v[0x2b7e1516, 0x28aed2a6, 0xabf71588, 0x09cf4f3c])) 43 = 0xb6630ca6 := by decide +kernel
theorem test_enc_kat :
    cipher (hexBlock 0x3243f6a8885a308d313198a2e0370734) (keyExpansion (hexBlock 0x2b7e151628aed2a6abf7158809cf4f3c)) =
      hexBlock 0x3925841d02dc09fbdc118597196a0b32 := by decide +kernel
theorem test_enc_appendix_c :
    cipher (hexBlock 0x00112233445566778899aabbccddeeff) (keyExpansion (hexBlock 0x000102030405060708090a0b0c0d0e0f)) =
      hexBlock 0x69c4e0d86a7b0430d8cdb78070b4c55a := by decide +kernel
theorem test_dec_of_plaintext :
    invCipher (hexBlock 0x3243f6a8885a308d313198a2e0370734) (keyExpansion (hexBlock 0x2b7e151628aed2a6abf7158809cf4f3c)) =
      hexBlock 0xcb13389c1d59c1d50d11f6b90c38ce7f := by decide +kernel
theorem test_dec_zero :
    invCipher (hexBlock 0) (keyExpansion (hexBlock 0)) = hexBlock 0x140f0f1011b5223d79587717ffd9ec3a := by decide +kernel

/-! ### The bus and the errors: L2.6, P4 and P5 -/

theorem test_bus_read_status :
    seen (step (facing [.host (.read 0x044 4)] State.reset)) = some (0x00000000, some ⟨.okay, (some 0x00000000)⟩) := by decide
theorem test_bus_read_cmd :
    seen (step (facing [.host (.read 0x040 4)] State.reset)) = some (0x00000000, some ⟨.okay, (some 0x00000000)⟩) := by decide
theorem test_bus_read_unmapped :
    seen (step (facing [.host (.read 0x03C 4)] State.reset)) = some (0x00000708, some ⟨.error, (some 0x00000000)⟩) := by decide
theorem test_bus_read_past_rkw :
    seen (step (facing [.host (.read 0x1B0 4)] State.reset)) = some (0x00000708, some ⟨.error, (some 0x00000000)⟩) := by decide
theorem test_bus_read_misaligned :
    seen (step (facing [.host (.read 0x002 4)] State.reset)) = some (0x00000708, some ⟨.error, (some 0x00000000)⟩) := by decide
theorem test_bus_read_byte :
    seen (step (facing [.host (.read 0x000 1)] State.reset)) = some (0x00000708, some ⟨.error, (some 0x00000000)⟩) := by decide
theorem test_bus_write_dout :
    seen (step (facing [.host (.write 0x020 4 5)] State.reset)) = some (0x00000708, some ⟨.error, none⟩) := by decide
theorem test_bus_write_rkw :
    seen (step (facing [.host (.write 0x100 4 5)] State.reset)) = some (0x00000708, some ⟨.error, none⟩) := by decide
theorem test_bus_clear :
    seen (step (facing [.host (.write 0x044 4 0x8)] { State.reset with err := true, errCode := 7 })) = some (0x00000000, some ⟨.okay, none⟩) := by decide
theorem test_bus_no_clear :
    seen (step (facing [.host (.write 0x044 4 0xFFFFFFF7)] { State.reset with err := true, errCode := 7 })) = some (0x00000708, some ⟨.okay, none⟩) := by decide
theorem test_bus_busy_din :
    seen (step (facing [.host (.write 0x010 4 0x1)] (busyWith .keyexp State.reset))) = some (0x00000609, some ⟨.error, none⟩) := by decide
theorem test_bus_busy_cmd :
    seen (step (facing [.host (.write 0x040 4 0x0)] (busyWith .keyexp State.reset))) = some (0x00000609, some ⟨.error, none⟩) := by decide
theorem test_bus_busy_dout :
    seen (step (facing [.host (.write 0x020 4 0x0)] (busyWith .keyexp State.reset))) = some (0x00000709, some ⟨.error, none⟩) := by decide
theorem test_bus_first_error_kept :
    seen (step (facing [.host (.write 0x040 4 0x0)] { State.reset with err := true, errCode := 7 })) = some (0x00000708, some ⟨.okay, none⟩) := by decide
theorem test_bus_enc_without_key :
    seen (step (facing [.host (.write 0x040 4 0x50)] State.reset)) = some (0x00000508, some ⟨.okay, none⟩) := by decide
theorem test_bus_ark_index_before_key :
    seen (step (facing [.host (.write 0x040 4 0xB38)] { State.reset with done := true })) = some (0x0000030A, some ⟨.okay, none⟩) := by decide
theorem test_bus_gfmul_byte_range :
    seen (step (facing [.host (.write 0x040 4 0x12)] { ops 0x157 0x83 with done := true })) = some (0x0000040A, some ⟨.okay, none⟩) := by decide
theorem test_bus_gfadd_checks_opb :
    seen (step (facing [.host (.write 0x040 4 0x10)] (ops 0x57 0x80000083))) = some (0x00000408, some ⟨.okay, none⟩) := by decide
theorem test_bus_keyexp_accepted :
    seen (step (facing [.host (.write 0x040 4 0x40)] State.reset)) = some (0x00000001, some ⟨.okay, none⟩) := by decide
theorem test_bus_enc_accepted :
    seen (step (facing [.host (.write 0x040 4 0x50)] marked)) = some (0x00000005, some ⟨.okay, none⟩) := by decide
theorem test_bus_key_write_invalidates :
    seen (step (facing [.host (.write 0x004 4 0x0)] { marked with done := true, err := true, errCode := 6 })) = some (0x0000060A, some ⟨.okay, none⟩) := by decide
theorem test_completion_status :
    seen (step (facing [.core] (busyWith .keyexp { State.reset with err := true, errCode := 6 }))) =
      some (0x0000060E, none) := by decide
theorem test_reset_abandons :
    step (facing [.reset] (busyWith .enc { keyed with opa := 5, done := true })) = .next State.reset := by rfl
theorem test_idle_stays : step State.reset = .next State.reset := by rfl
theorem test_fetch_word :
    step (State.reset.withFetchWord 32 0x10) =
      .next { State.reset with pend := some .gfadd, busy := true, resp := some ⟨.okay, none⟩ } := by rfl
theorem test_core_step : Host.Core.run Sys2Proof.core 3 State.reset = .next State.reset := by rfl

/-! ### The host program notation (R82, R83) -/

theorem test_wait_expands : HostStmt.wait 5 = [.rd .status, .bnz .status 0x1 5] := by rfl
theorem test_cmd_ark_expands : HostStmt.cmd (.ark 3) = [.wr .cmd 0x00000338] := by decide
theorem test_bnz_loops :
    ((HostRun.hostTurn ⟨HostStmt.wait 0, 1, [(.status, 0x1)], State.reset⟩).map fun o =>
      match o with
      | .next h => h.pos
      | .fault _ => 9
      | .refused _ => 9) = some 0 := by decide
theorem test_rd_notes_value :
    ((HostRun.hostTurn ⟨HostStmt.wait 0, 0, [], marked⟩).map fun o =>
      match o with
      | .next h => h.seen
      | .fault _ => []
      | .refused _ => []) = some [(.status, 0x4)] := by decide

/-! ### Witnesses: for each statement with hypotheses, a state and operands that meet them, clause by clause -/

/-- The clauses of a command's encoding: another word of its opcode, and a busy state. -/
def WordWitness (word : Word) (s : State) : Prop :=
  (∃ w : Word, w.extractLsb' 0 8 = word.extractLsb' 0 8 ∧ w ≠ word) ∧ s.busy = true

/-- The clauses of a command's life: idle, and busy with it. -/
def LifeWitness (i : Instr) (idle busy : State) : Prop :=
  idle.busy = false ∧ busy.busy = true ∧ busy.pend = some i

theorem witness_GfaddWritesFieldSum :
    WordWitness 0x10 (busyWith .gfadd (ops 0xFF 0xFF)) ∧ LifeWitness .gfadd (ops 0xFF 0xFF) (busyWith .gfadd (ops 0xFF 0xFF)) ∧
    ((ops 0x100 0xFF).busy = false ∧ byteCheckAB (ops 0x100 0xFF) = some 4) ∧ byteCheckAB (ops 0xFF 0xFF) = none :=
  ⟨⟨⟨0x10 ||| 0xFFFFF000, by decide, by decide⟩, rfl⟩, ⟨rfl, rfl, rfl⟩, by decide, by decide⟩
theorem witness_GfxtWritesTimesX :
    WordWitness 0x11 (busyWith .gfxt (ops 0xFF 0xFFFFFFFF)) ∧ LifeWitness .gfxt (ops 0xFF 0xFFFFFFFF) (busyWith .gfxt (ops 0xFF 0xFFFFFFFF)) ∧
    ((ops 0x100 0).busy = false ∧ byteCheckA (ops 0x100 0) = some 4) ∧ byteCheckA (ops 0xFF 0xFFFFFFFF) = none :=
  ⟨⟨⟨0x11 ||| 0xFFFFF000, by decide, by decide⟩, rfl⟩, ⟨rfl, rfl, rfl⟩, by decide, by decide⟩
theorem witness_GfmulWritesFieldProduct :
    WordWitness 0x12 (busyWith .gfmul (ops 0xFF 0xFF)) ∧ LifeWitness .gfmul (ops 0xFF 0xFF) (busyWith .gfmul (ops 0xFF 0xFF)) ∧
    ((ops 0xFF 0x100).busy = false ∧ byteCheckAB (ops 0xFF 0x100) = some 4) ∧ byteCheckAB (ops 0xFF 0xFF) = none :=
  ⟨⟨⟨0x12 ||| 0xFFFFF000, by decide, by decide⟩, rfl⟩, ⟨rfl, rfl, rfl⟩, by decide, by decide⟩
theorem witness_SboxWritesSubstitute :
    WordWitness 0x20 (busyWith .sbox (ops 0xFF 0)) ∧ LifeWitness .sbox (ops 0xFF 0) (busyWith .sbox (ops 0xFF 0)) ∧
    ((ops 0x1FF 0).busy = false ∧ byteCheckA (ops 0x1FF 0) = some 4) ∧ byteCheckA (ops 0xFF 0) = none :=
  ⟨⟨⟨0x20 ||| 0xFFFFF000, by decide, by decide⟩, rfl⟩, ⟨rfl, rfl, rfl⟩, by decide, by decide⟩
theorem witness_IsboxWritesInverseSubstitute :
    WordWitness 0x21 (busyWith .isbox (ops 0xFF 0)) ∧ LifeWitness .isbox (ops 0xFF 0) (busyWith .isbox (ops 0xFF 0)) ∧
    ((ops 0x80000000 0).busy = false ∧ byteCheckA (ops 0x80000000 0) = some 4) ∧ byteCheckA (ops 0xFF 0) = none :=
  ⟨⟨⟨0x21 ||| 0xFFFFF000, by decide, by decide⟩, rfl⟩, ⟨rfl, rfl, rfl⟩, by decide, by decide⟩
theorem witness_RotwRotatesWord :
    WordWitness 0x22 (busyWith .rotw State.reset) ∧ LifeWitness .rotw State.reset (busyWith .rotw State.reset) :=
  ⟨⟨⟨0x22 ||| 0xFFFFF000, by decide, by decide⟩, rfl⟩, ⟨rfl, rfl, rfl⟩⟩
theorem witness_SubwSubstitutesWord :
    WordWitness 0x23 (busyWith .subw State.reset) ∧ LifeWitness .subw State.reset (busyWith .subw State.reset) :=
  ⟨⟨⟨0x23 ||| 0xFFFFF000, by decide, by decide⟩, rfl⟩, ⟨rfl, rfl, rfl⟩⟩
theorem witness_LdstLoadsState :
    WordWitness 0x30 (busyWith .ldst State.reset) ∧ LifeWitness .ldst State.reset (busyWith .ldst State.reset) :=
  ⟨⟨⟨0x30 ||| 0xFFFFF000, by decide, by decide⟩, rfl⟩, ⟨rfl, rfl, rfl⟩⟩
theorem witness_StstStoresState :
    WordWitness 0x31 (busyWith .stst State.reset) ∧ LifeWitness .stst State.reset (busyWith .stst State.reset) :=
  ⟨⟨⟨0x31 ||| 0xFFFFF000, by decide, by decide⟩, rfl⟩, ⟨rfl, rfl, rfl⟩⟩
theorem witness_SubbSubstitutesBytes :
    WordWitness 0x32 (busyWith .subb State.reset) ∧ LifeWitness .subb State.reset (busyWith .subb State.reset) :=
  ⟨⟨⟨0x32 ||| 0xFFFFF000, by decide, by decide⟩, rfl⟩, ⟨rfl, rfl, rfl⟩⟩
theorem witness_IsubbSubstitutesBytesBack :
    WordWitness 0x33 (busyWith .isubb State.reset) ∧ LifeWitness .isubb State.reset (busyWith .isubb State.reset) :=
  ⟨⟨⟨0x33 ||| 0xFFFFF000, by decide, by decide⟩, rfl⟩, ⟨rfl, rfl, rfl⟩⟩
theorem witness_ShrShiftsRowsLeft :
    WordWitness 0x34 (busyWith .shr State.reset) ∧ LifeWitness .shr State.reset (busyWith .shr State.reset) ∧
    (∀ r c, (hexMat 0x00010203000102030001020300010203).at r c = (hexMat 0x00010203000102030001020300010203).at r 0) :=
  ⟨⟨⟨0x34 ||| 0xFFFFF000, by decide, by decide⟩, rfl⟩, ⟨rfl, rfl, rfl⟩, by decide +kernel⟩
theorem witness_IshrShiftsRowsRight :
    WordWitness 0x35 (busyWith .ishr State.reset) ∧ LifeWitness .ishr State.reset (busyWith .ishr State.reset) :=
  ⟨⟨⟨0x35 ||| 0xFFFFF000, by decide, by decide⟩, rfl⟩, ⟨rfl, rfl, rfl⟩⟩
theorem witness_MixcMixesColumns :
    WordWitness 0x36 (busyWith .mixc State.reset) ∧ LifeWitness .mixc State.reset (busyWith .mixc State.reset) ∧
    (∀ r, (hexMat 0xC6C6C6C6).at r 3 = (hexMat 0xC6C6C6C6).at 0 3) :=
  ⟨⟨⟨0x36 ||| 0xFFFFF000, by decide, by decide⟩, rfl⟩, ⟨rfl, rfl, rfl⟩, by decide +kernel⟩
theorem witness_ImixcMixesColumnsBack :
    WordWitness 0x37 (busyWith .imixc State.reset) ∧ LifeWitness .imixc State.reset (busyWith .imixc State.reset) ∧
    (∀ r, (hexMat 0xC6C6C6C6).at r 3 = (hexMat 0xC6C6C6C6).at 0 3) :=
  ⟨⟨⟨0x37 ||| 0xFFFFF000, by decide, by decide⟩, rfl⟩, ⟨rfl, rfl, rfl⟩, by decide +kernel⟩
theorem witness_KeyexpExpandsKey :
    WordWitness 0x40 (busyWith .keyexp State.reset) ∧ LifeWitness .keyexp State.reset (busyWith .keyexp State.reset) :=
  ⟨⟨⟨0x40 ||| 0xFFFFF000, by decide, by decide⟩, rfl⟩, ⟨rfl, rfl, rfl⟩⟩
theorem witness_EncEncryptsBlock :
    WordWitness 0x50 (busyWith .enc (marked)) ∧ LifeWitness .enc (marked) (busyWith .enc (marked)) ∧
    ((State.reset).busy = false ∧ keyCheck (State.reset) = some 5) ∧ keyCheck (marked) = none :=
  ⟨⟨⟨0x50 ||| 0xFFFFF000, by decide, by decide⟩, rfl⟩, ⟨rfl, rfl, rfl⟩, by decide, by decide⟩
theorem witness_DecDecryptsBlock :
    WordWitness 0x51 (busyWith .dec (marked)) ∧ LifeWitness .dec (marked) (busyWith .dec (marked)) ∧
    ((State.reset).busy = false ∧ keyCheck (State.reset) = some 5) ∧ keyCheck (marked) = none :=
  ⟨⟨⟨0x51 ||| 0xFFFFF000, by decide, by decide⟩, rfl⟩, ⟨rfl, rfl, rfl⟩, by decide, by decide⟩
theorem witness_RconReadsRoundConstant :
    (∃ k : BitVec 4, k.toNat = 9 ∧ k.toNat ≤ 9 ∧ LifeWitness (.rcon k) marked (busyWith (.rcon k) marked)) ∧
    (∃ w : Word, w.extractLsb' 0 8 = (0x24 : Byte) ∧ w.extractLsb' 12 20 ≠ 0) ∧
    (∃ w : Word, w.extractLsb' 0 8 = (0x24 : Byte) ∧ w.extractLsb' 12 20 = 0 ∧ 9 < (w.extractLsb' 8 4).toNat) :=
  ⟨⟨9, by decide, by decide, rfl, rfl, rfl⟩, ⟨0x24 ||| 0x1000, by decide, by decide⟩, ⟨0xA24, by decide, by decide, by decide⟩⟩
theorem witness_ArkAddsRoundKey :
    (∃ k : BitVec 4, k.toNat = 10 ∧ k.toNat ≤ 10 ∧ LifeWitness (.ark k) marked (busyWith (.ark k) marked)) ∧
    (∃ w : Word, w.extractLsb' 0 8 = (0x38 : Byte) ∧ w.extractLsb' 12 20 ≠ 0) ∧
    (∃ w : Word, w.extractLsb' 0 8 = (0x38 : Byte) ∧ w.extractLsb' 12 20 = 0 ∧ 10 < (w.extractLsb' 8 4).toNat) ∧ keyCheck State.reset = some 5 ∧ keyCheck marked = none :=
  ⟨⟨10, by decide, by decide, rfl, rfl, rfl⟩, ⟨0x38 ||| 0x1000, by decide, by decide⟩, ⟨0xB38, by decide, by decide, by decide⟩, rfl, rfl⟩
theorem witness_SboxFollowsConstruction :
    multiply 0x53 0xCA = 0x01 ∧ ((0x00 : Byte) = 0x00 ∧ (0x00 : Byte) = 0x00) := by decide
theorem witness_DistinctKeysGiveDistinctSchedules : ∃ k k' : Block, keyExpansion k = keyExpansion k' :=
  ⟨hexBlock 0, hexBlock 0, rfl⟩
theorem witness_DecAfterEncRestoresBlock :
    ∃ s t u v : State, s.busy = true ∧ s.pend = some .enc ∧ exec .enc s = .next t ∧
      u = { t with din := t.dout, pend := some .dec, busy := true, done := false } ∧ exec .dec u = .next v :=
  ⟨busyWith .enc marked, _, _, _, rfl, rfl, rfl, rfl, rfl⟩
theorem witness_ResetSetsEveryElement :
    ∃ s : State, s.inputs = [.reset, .core] ∧ s.busy = true := ⟨facing [.reset, .core] (busyWith .enc marked), rfl, rfl⟩
theorem witness_KeyWriteInvalidatesSchedule :
    marked.busy = false ∧ State.reset.busy = false ∧ State.reset.keyValid = false ∧ decodeCommand 0x50 = .ok .enc ∧
    decodeCommand 0x51 = .ok .dec ∧ decodeCommand 0xA38 = .ok (.ark 10) ∧ step State.reset = .next State.reset ∧
    ¬ Completes .keyexp State.reset :=
  ⟨by decide, rfl, rfl, by decide, by decide, by decide, rfl, fun h => by cases h.2.1⟩
theorem witness_ReadReturnsRegister : (1 : Nat) ≠ 4 ∧ regAt 0x03C = none := by decide
theorem witness_OperandWriteStores : State.reset.busy = false := rfl
theorem witness_BadAccessIsRejected :
    ((1 : Nat) ≠ 4) ∧ Unmapped 0x1FE ∧ Unmapped 0x03C ∧ Unmapped 0x048 ∧ Unmapped 0x0FC ∧ Unmapped 0x1B0 ∧ Unmapped 0x1FC := by
  unfold Unmapped; decide
theorem witness_BusyWriteIsRejected :
    (busyWith .keyexp State.reset).busy = true ∧ (∃ n, RegName.key 3 = .key n) ∧ (∃ n, RegName.din 0 = .din n) ∧
    (∃ n, RegName.dout 3 = .dout n) ∧ (∃ i, RegName.rkw 43 = .rkw i) := ⟨rfl, ⟨3, rfl⟩, ⟨0, rfl⟩, ⟨3, rfl⟩, ⟨43, rfl⟩⟩
theorem witness_ErrorResponseExactlyInErrorCases :
    ErrorCase (.read 0x03C 4) State.reset ∧ ErrorCase (.write 0x020 4 0) State.reset ∧ ¬ ErrorCase (.read 0x044 4) State.reset := by
  refine ⟨.inr (by decide), .inr fun r h => .inl ?_, ?_⟩
  · have : regAt 0x020 = some (.dout 0) := by decide
    rw [this] at h; cases h; rfl
  · rintro (h | h)
    · exact h rfl
    · revert h; decide
theorem witness_CommandChecksRunInOrder :
    (busyWith .enc marked).busy = true ∧ State.reset.busy = false ∧ firstFailing 0x52 State.reset = some 1 ∧ firstFailing 0x1050 State.reset = some 2 ∧
    firstFailing 0x150 State.reset = some 2 ∧ firstFailing 0xB38 State.reset = some 3 ∧
    firstFailing 0x11 (ops 0x100 0) = some 4 ∧ firstFailing 0x10 (ops 0 0x100) = some 4 ∧
    firstFailing 0x50 State.reset = some 5 ∧ firstFailing 0xA38 marked = none := by decide
theorem witness_RejectionIsPrecise :
    (∃ t, hostAccess (.read 0x03C 4) State.reset = .next t ∧ t.resp = some ⟨.error, some 0⟩) ∧
    (∃ t, hostAccess (.write 0x040 4 0x50) State.reset = .next t ∧ t.busy = State.reset.busy ∧ State.reset.busy = false) :=
  ⟨⟨_, rfl, rfl⟩, ⟨_, rfl, rfl, rfl⟩⟩
theorem witness_FirstErrorStaysUntilCleared :
    ∃ s t : State, step s = .next t ∧ s.err = true ∧ ¬ ClearsError (turnOf s) ∧ turnOf s ≠ .reset :=
  ⟨facing [.host (.read 0x03C 4)] { State.reset with err := true, errCode := 6 }, _, rfl, rfl, fun h => h, by decide⟩
theorem witness_ErrorsDependOnStatusAndOperandsOnly :
    ∃ s s' t t' : State, s ≠ s' ∧ errorView s = errorView s' ∧ hostAccess (.write 0x040 4 0x50) s = .next t ∧
      hostAccess (.write 0x040 4 0x50) s' = .next t' :=
  ⟨State.reset, working 1, _, _, by decide +kernel, by decide, rfl, rfl⟩
theorem witness_StepRunsTheDecodedCommand :
    (∃ s : State, s.inputs = [.host (.write 0x040 4 0xA38)] ∧ s.busy = false ∧ decodeCommand 0xA38 = .ok (.ark 10)) ∧
    (∃ s : State, s.inputs = [.core] ∧ s.busy = true ∧ s.pend = some .enc) ∧
    (∃ s : State, s.inputs = [] ∧ s.busy = false) ∧ (∃ s : State, s.inputs = [.host (.read 0x000 4)]) :=
  ⟨⟨facing [.host (.write 0x040 4 0xA38)] marked, rfl, rfl, by decide⟩, ⟨facing [.core] (busyWith .enc marked), rfl, rfl, rfl⟩,
    ⟨State.reset, rfl, rfl⟩, ⟨facing [.host (.read 0x000 4)] State.reset, rfl⟩⟩

/-- A reachable busy state: ENC accepted under the expanded zero key. -/
theorem keyed_enc_inv : (busyWith .enc keyed).Inv where
  busyIffPend := by simp [busyWith]
  busyNotDone := fun _ => rfl
  errIffCode := by decide
  codeAssigned := by decide
  keySchedule := fun _ => by
    have h : keyBytes (busyWith .enc keyed) = hexBlock 0 := by decide +kernel
    rw [h]; rfl
  pendAccepted := fun i h => by
    cases h
    exact ⟨rfl, fun h => absurd h (by decide), fun h => absurd h (by decide), fun _ => rfl⟩

theorem witness_StepKeepsInvariant : ∃ s t : State, s.Inv ∧ step s = .next t :=
  ⟨busyWith .enc keyed, _, keyed_enc_inv, rfl⟩
theorem witness_CoreNeverGetsStuck : ∃ s : State, s.Inv ∧ turnOf s = .core ∧ s.busy = true :=
  ⟨busyWith .enc keyed, keyed_enc_inv, rfl, rfl⟩
theorem witness_AcceptedCommandCompletes : ∃ s : State, s.Inv ∧ s.pend = some .enc ∧ s.resetComing = false :=
  ⟨busyWith .enc keyed, keyed_enc_inv, rfl, rfl⟩
theorem witness_ResultIndependentOfHostAccesses : ∃ s : State, s.Inv ∧ s.busy = true :=
  ⟨busyWith .enc keyed, keyed_enc_inv, rfl⟩
theorem witness_OnlyCompletionsWriteResults :
    ∃ s t : State, step s = .next t ∧ turnOf s ≠ .reset ∧ t.res ≠ s.res :=
  ⟨facing [.core] (busyWith (.rcon 0) State.reset), _, rfl, by decide, by decide⟩
theorem witness_OnlyCompletionsWriteResults_round :
    ∃ s t : State, step s = .next t ∧ turnOf s ≠ .reset ∧ t.stateReg ≠ s.stateReg :=
  ⟨facing [.core] (busyWith .subb State.reset), _, rfl, by decide, by decide +kernel⟩
theorem witness_OnlyCompletionsWriteResults_dout :
    ∃ s t : State, step s = .next t ∧ turnOf s ≠ .reset ∧ t.dout ≠ s.dout :=
  ⟨facing [.core] (busyWith .stst (working 1)), _, rfl, by decide, by decide +kernel⟩
theorem witness_OnlyCompletionsWriteResults_rk :
    ∃ s t : State, step s = .next t ∧ turnOf s ≠ .reset ∧ t.rk ≠ s.rk :=
  ⟨facing [.core] (busyWith .keyexp State.reset), _, rfl, by decide, by decide +kernel⟩
theorem witness_KeyValidChangesOnlyAsSaid :
    (∃ s t : State, step s = .next t ∧ s.keyValid = false ∧ t.keyValid = true) ∧
    (∃ s t : State, step s = .next t ∧ s.keyValid = true ∧ t.keyValid = false ∧ turnOf s ≠ .reset) ∧
    (∃ s t : State, step s = .next t ∧ s.keyValid = true ∧ t.keyValid = false ∧ turnOf s = .reset) :=
  ⟨⟨facing [.core] (busyWith .keyexp State.reset), _, rfl, rfl, rfl⟩,
    ⟨facing [.host (.write 0x00C 4 0)] marked, _, rfl, rfl, rfl, by decide⟩, ⟨facing [.reset] marked, _, rfl, rfl, rfl, rfl⟩⟩
theorem witness_OnlyTheHostWritesOperands :
    (∃ s t : State, step s = .next t ∧ turnOf s ≠ .reset ∧ t.key[3] ≠ s.key[3]) ∧
    (∃ s t : State, step s = .next t ∧ turnOf s ≠ .reset ∧ t.din[0] ≠ s.din[0]) ∧
    (∃ s t : State, step s = .next t ∧ turnOf s ≠ .reset ∧ t.opa ≠ s.opa) ∧
    (∃ s t : State, step s = .next t ∧ turnOf s ≠ .reset ∧ t.opb ≠ s.opb) :=
  ⟨⟨facing [.host (.write 0x00C 4 1)] State.reset, _, rfl, by decide, by decide⟩,
    ⟨facing [.host (.write 0x010 4 1)] State.reset, _, rfl, by decide, by decide⟩,
    ⟨facing [.host (.write 0x030 4 1)] State.reset, _, rfl, by decide, by decide⟩,
    ⟨facing [.host (.write 0x034 4 1)] State.reset, _, rfl, by decide, by decide⟩⟩
theorem witness_BusyAndDoneLifecycle_completion :
    ∃ s t : State, s.Inv ∧ step s = .next t ∧ turnOf s ≠ .reset ∧ s.busy = true ∧ t.busy = false ∧ s.done = false ∧ t.done = true :=
  ⟨busyWith .enc keyed, _, keyed_enc_inv, rfl, by decide, rfl, rfl, rfl, rfl⟩

/-- An idle state after a completion, about to be given a command. -/
def idleDone : State := facing [.host (.write 0x040 4 0x31)] { State.reset with done := true }

theorem idleDone_inv : idleDone.Inv where
  busyIffPend := by simp [idleDone, facing, State.reset]
  busyNotDone := by decide
  errIffCode := by decide
  codeAssigned := by decide
  keySchedule := fun h => by cases h
  pendAccepted := fun i h => by cases h

theorem witness_BusyAndDoneLifecycle_accept :
    ∃ s t : State, s.Inv ∧ step s = .next t ∧ turnOf s ≠ .reset ∧ s.busy = false ∧ t.busy = true ∧ s.done = true ∧ t.done = false :=
  ⟨idleDone, _, idleDone_inv, rfl, by decide, rfl, rfl, rfl, rfl⟩
theorem witness_WindowAddressesReachRegisters :
    ∃ addr : Nat, addr < Config.aesBase ∨ Config.aesBase + 0x200 ≤ addr := ⟨Config.aesBase + 0x200, .inr (Nat.le_refl _)⟩

/-- The stop of `MeaningsStopOnlyOnMissingIndices` does occur, in a state no run reaches. -/
theorem witness_MeaningsStopOnlyOnMissingIndices :
    exec (.ark 11) (busyWith (.ark 11) State.reset) = .fault .indexDoesNotExist ∧ Instr.wf (.ark 11) = false := ⟨rfl, rfl⟩

end Sys2Proof.Tests
end

section
/-! The window and its register map (20_memory.md R50, R51), each function's equations said once. -/

namespace Sys2Proof

/-- The map of R51 takes every register's offset back to the register. -/
@[simp] theorem regAt_offset (r : RegName) : regAt r.offset = some r := by
  cases r with
  | key n => revert n; decide
  | din n => revert n; decide
  | dout n => revert n; decide
  | rkw i => revert i; decide
  | opa | opb | res | cmd | status => rfl

/-- A register is mapped at no offset but its own (R51): the map's branches in turn, the misaligned offset first, then one
per row of R51, then the unmapped offset. -/
theorem offset_eq_of_regAt {off : BitVec 9} {r : RegName} (h : regAt off = some r) : r.offset = off := by
  refine BitVec.eq_of_toNat_eq ?_
  unfold regAt at h
  obtain ⟨-, misaligned⟩ | ⟨aligned, h⟩ := ite_eq_iff.mp h
  · cases misaligned
  iterate 9
    obtain ⟨inRow, row⟩ | ⟨notInRow, h⟩ := ite_eq_iff.mp h
    · cases row
      simp only [RegName.offset, BitVec.ofNat_eq_ofNat, BitVec.toNat_ofNat, Fin.ofNat]
      omega
  cases h

/-- An offset maps to a register exactly when it is that register's offset (R51). -/
theorem regAt_eq_some_iff {off : BitVec 9} {r : RegName} : regAt off = some r ↔ r.offset = off :=
  ⟨offset_eq_of_regAt, fun h => h ▸ regAt_offset r⟩

/-- `AES_BASE` is a multiple of the window's size (R10). -/
theorem Config.aesBase_mod_window : Config.aesBase % 0x200 = 0 :=
  Nat.mul_mod_right Config.windowBytes Config.aesBaseIndex

namespace Machine

/-- An address in the window has the offset it was formed from (R50). -/
@[simp] theorem offsetOfAddress_base_add (base : Nat) (off : BitVec 9) :
    offsetOfAddress base (base + off.toNat) = some off := by
  have inWindow : off.toNat < 0x200 := off.isLt
  simp [offsetOfAddress, Config.windowBytes, inWindow]

/-- An address outside the window has no offset in it (R50, R52). -/
theorem offsetOfAddress_outside {base addr : Nat} (h : addr < base ∨ base + 0x200 ≤ addr) :
    offsetOfAddress base addr = none :=
  if_neg fun ⟨atLeast, below⟩ => h.elim (Nat.not_lt.mpr atLeast) (Nat.not_le.mpr below)

end Machine

open Machine

/-- Settles O59: the window's two clauses by the offset of an address, the map's by its two directions. -/
theorem windowAddressesReachRegisters : Obligations.WindowAddressesReachRegisters := by
  unfold Obligations.WindowAddressesReachRegisters
  refine ⟨fun off n v => ?inside, fun addr n v outside => ?outside, Config.aesBase_mod_window,
    fun off r => regAt_eq_some_iff⟩
  case inside => simp [readAtAddress, writeAtAddress]
  case outside => simp [readAtAddress, writeAtAddress, offsetOfAddress_outside outside]

end Sys2Proof
end

section
/-! What a step does, by whose turn it is, and how a turn comes to run a command (00_scope.md R19, 60_exceptions.md R197,
R211). -/

namespace Sys2Proof.Machine

/-- The host's turn is its access. -/
theorem step_of_host {s : State} {a : Access} {rest : List Turn} (h : s.inputs = .host a :: rest) :
    step s = hostAccess a { s with inputs := rest, resp := none } := by
  simp [step, nextTurn, h]

/-- The core's turn, said by `inputs` or taken because `inputs` is empty (log entries 1 and 2). -/
theorem step_of_core {s : State} {rest : List Turn}
    (h : s.inputs = .core :: rest ∨ (s.inputs = [] ∧ rest = [])) :
    step s = coreTurn { s with inputs := rest, resp := none } := by
  obtain h | ⟨h, rfl⟩ := h <;> simp [step, nextTurn, h]

/-- The turn of a busy core is the meaning of the command in PEND (R211). -/
theorem coreTurn_busy {s : State} {i : Instr} (hb : s.busy = true) (hp : s.pend = some i) :
    coreTurn s = exec i s := by
  simp [coreTurn, hb, hp]

/-- A command word that decodes is presented as its command (R197). -/
theorem presentCommand_of_decode {w : Word} {i : Instr} (hd : decodeCommand w = .ok i) (s : State) :
    presentCommand w s = exec i s := by
  simp [presentCommand, hd]

/-- A CMD write to an idle core presents its word, and the bus answers OKAY (R57, R66). -/
theorem hostAccess_write_cmd_idle {s : State} (w : Word) (hb : s.busy = false) :
    hostAccess (.write (RegName.offset .cmd) 4 w) s = presentCommand w (respond .okay none s) := by
  simp [hostAccess, busWrite, accessed, readOnly, hb]

/-- Settles O46: each clause is the turn's step lemma, followed to the command it runs. -/
theorem stepRunsTheDecodedCommand : Obligations.StepRunsTheDecodedCommand := by
  unfold Obligations.StepRunsTheDecodedCommand
  intro s rest
  refine ⟨fun w i hin hb hd => ?cmdWrite, fun i hin hb hp => ?completion, fun hin hb => ?idle, fun a hin => ?access⟩
  case cmdWrite =>
    calc step s
        = hostAccess (.write 0x040 4 w) { s with inputs := rest, resp := none } := step_of_host hin
      _ = presentCommand w { s with inputs := rest, resp := some ⟨.okay, none⟩ } := hostAccess_write_cmd_idle w hb
      _ = exec i { s with inputs := rest, resp := some ⟨.okay, none⟩ } := presentCommand_of_decode hd _
  case completion => exact (step_of_core hin).trans (coreTurn_busy hb hp)
  case idle => exact (step_of_core hin).trans (coreTurn_idle hb)
  case access => exact step_of_host hin

end Sys2Proof.Machine
end

section
/-! The byte views of four registers (10_state.md R39) and the Words they are packed from (20_memory.md R54, R55). -/

namespace Sys2Proof.Machine

/-- Byte `j` of a register is its bits 31-8j : 24-8j (R39). -/
theorem byteLane_eq_setWidth_ushiftRight (v : Word) (j : Fin 4) :
    byteLane v j = (v >>> (24 - 8 * j.val)).setWidth 8 := by
  refine BitVec.eq_of_getLsbD_eq fun i hi => ?_
  simp [byteLane]

/-- A Word is packed from its own four bytes. -/
@[simp] theorem packWord_byteLane (v : Word) :
    packWord (byteLane v 0) (byteLane v 1) (byteLane v 2) (byteLane v 3) = v := by
  refine BitVec.eq_of_getLsbD_eq fun i hi => ?_
  interval_cases i <;> simp [packWord, byteLane]

/-- Two Words with equal bytes are equal. -/
theorem eq_of_byteLane {v w : Word} (h : ∀ j, byteLane v j = byteLane w j) : v = w := by
  rw [← packWord_byteLane v, h 0, h 1, h 2, h 3, packWord_byteLane]

/-- Byte `4n + j` of the byte view is byte `j` of register `n` (R39). -/
theorem bytesOf_getElem (q : Quad) (n j : Fin 4) : (bytesOf q)[4 * n.val + j.val] = byteLane q[n] j := by
  have quotient : (4 * n.val + j.val) / 4 = n.val := by omega
  have remainder : (4 * n.val + j.val) % 4 = j.val := by omega
  simp [bytesOf, quotient, remainder]

/-- Word `n` of the word view is packed from bytes `4n` to `4n + 3` (R39). -/
theorem wordsOf_getElem (b : Block) (n : Fin 4) :
    (wordsOf b)[n] = packWord b[4 * n.val] b[4 * n.val + 1] b[4 * n.val + 2] b[4 * n.val + 3] := by
  simp [wordsOf]

/-- Byte `j` of word `n` of the word view is byte `4n + j` of the block. -/
theorem byteLane_wordsOf (b : Block) (n j : Fin 4) : byteLane (wordsOf b)[n] j = b[4 * n.val + j.val] := by
  rw [wordsOf_getElem]
  fin_cases j
  · exact byteLane_packWord_0 ..
  · exact byteLane_packWord_1 ..
  · exact byteLane_packWord_2 ..
  · exact byteLane_packWord_3 ..

/-- The word view undoes the byte view (R39): each byte of each word is the register's. -/
@[simp] theorem wordsOf_bytesOf (q : Quad) : wordsOf (bytesOf q) = q := by
  refine Vector.ext fun n hn => eq_of_byteLane fun j => ?_
  calc byteLane (wordsOf (bytesOf q))[n] j
      = (bytesOf q)[4 * n + j.val] := byteLane_wordsOf (bytesOf q) ⟨n, hn⟩ j
    _ = byteLane q[n] j := bytesOf_getElem q ⟨n, hn⟩ j

/-- The byte view undoes the word view (R39). -/
@[simp] theorem bytesOf_wordsOf (b : Block) : bytesOf (wordsOf b) = b := by
  refine Vector.ext fun i hi => ?_
  obtain ⟨n, j, rfl⟩ : ∃ n j : Fin 4, i = 4 * n.val + j.val :=
    ⟨⟨i / 4, by omega⟩, ⟨i % 4, by omega⟩, (Nat.div_add_mod i 4).symm⟩
  rw [bytesOf_getElem, byteLane_wordsOf]

/-- Settles O25: the two views by their entries. -/
theorem registerViewsAreInverse : Obligations.RegisterViewsAreInverse := by
  unfold Obligations.RegisterViewsAreInverse
  refine ⟨wordsOf_bytesOf, bytesOf_wordsOf, fun q n j => ?lane, wordsOf_getElem, fun s => ⟨rfl, rfl⟩⟩
  case lane => rw [bytesOf_getElem, byteLane_eq_setWidth_ushiftRight]

end Sys2Proof.Machine
end

section
/-! Reset (10_state.md R41, 70_reset_and_hazards.md R220). -/

namespace Sys2Proof

@[simp] theorem Mat.at_zero (r c : Fin 4) : Mat.zero.at r c = 0 := by simp [Mat.zero]

namespace Machine

/-- After reset every register of the window reads 0 (R41), whatever the turns to come. -/
theorem readReg_resetCore (r : RegName) (s : State) : readReg r (resetCore s) = 0 := by
  cases r with
  | key n | din n | dout n => simp [readReg, State.reset]
  | opa | opb | res | cmd => rfl
  | status => simp [readReg, State.reset, statusWord, flagBit]
  | rkw i => simp [readReg, State.reset, rkWord, packWord]

/-- A reset turn resets the core (R220). -/
theorem step_of_reset {s : State} {rest : List Turn} (h : s.inputs = .reset :: rest) :
    step s = .next { State.reset with inputs := rest } := by
  simp [step, nextTurn, h, resetCore]

/-- Settles O34: the state that a reset turn answers, field by field. -/
theorem resetSetsEveryElement : Obligations.ResetSetsEveryElement := by
  unfold Obligations.ResetSetsEveryElement
  intro s rest hin
  refine ⟨_, step_of_reset hin, fun n => ?quads, rfl, rfl, rfl, rfl, rfl, rfl, rfl, rfl, fun r c => ?matrix,
    fun k r c => ?schedule, rfl, fun r => ?reads, rfl⟩
  case quads => simp [State.reset]
  case matrix => exact Mat.at_zero r c
  case schedule => simp [State.reset]
  case reads => exact readReg_resetCore r { s with inputs := rest }

end Machine

end Sys2Proof
end

section
/-! What one step can make of the fields of the spec's state, said once for the statements about steps. -/

namespace Sys2Proof.Machine

open Sys2Proof.Claims

/-- ERR and ERRCODE agree, and the code is an assigned one (R36, R191): the invariant's two clauses on the error record. -/
def ErrorRecordWf (s : State) : Prop := (s.err = false ↔ s.errCode = 0) ∧ s.errCode.toNat ≤ 7

/-- Recording an error keeps the error record well formed (R196). -/
theorem ErrorRecordWf.raiseError {s : State} (h : ErrorRecordWf s) (e : ErrName) :
    ErrorRecordWf (raiseError e s) := by
  unfold Machine.raiseError
  split
  · exact h
  · cases e <;> simp [ErrorRecordWf, ErrName.code]

/-- A STATUS write keeps the error record well formed (R61, R200). -/
theorem ErrorRecordWf.writeStatus {s : State} (h : ErrorRecordWf s) (v : Word) :
    ErrorRecordWf (writeStatus v s) := by
  unfold Machine.writeStatus
  split
  · simp [ErrorRecordWf]
  · exact h

/-- What a step from `s` that answers `t` can be. -/
inductive StepCase (s : State) : State → Prop
  /-- Reset (R220). -/
  | reset (turn : turnOf s = .reset) : StepCase s (resetCore (begun s))
  /-- An idle core's turn, a read, an error or rejection, or a STATUS write: only the error record and the model's own
  fields can change (R58, R61, R196). -/
  | quiet {t : State} (same : dataView t = dataView s) (record : ErrorRecordWf s → ErrorRecordWf t) : StepCase s t
  /-- A completion (R211). -/
  | completion {i : Instr} {u : State} (completes : Completes i s) (effect : effectOf i (begun s) = .next u) :
    StepCase s (retire u)
  /-- A write to KEY, DIN, OPA or OPB, which reaches an idle core only (R57, R59). -/
  | written {r : RegName} {v : Word} (turn : turnOf s = .host (.write r.offset 4 v)) (idle : s.busy = false)
    (locked : lockedWhileBusy r = true) : StepCase s (respond .okay none (writeReg r v (begun s)))
  /-- A CMD write whose command an idle core accepts (R210). -/
  | accepted {i : Instr} {v : Word} (turn : turnOf s = .host (.write (RegName.offset .cmd) 4 v)) (idle : s.busy = false)
    (passes : Accepted i (begun s)) : StepCase s (accept i (respond .okay none (begun s)))

/-- The one register that the host may write at any time is STATUS (R57, R59, R61). -/
theorem eq_status_of_writable_unlocked {r : RegName} (hro : readOnly r = false) (hl : lockedWhileBusy r = false) :
    r = .status := by
  cases r with
  | status => rfl
  | dout _ | res | rkw _ => cases hro
  | key _ | din _ | opa | opb | cmd => cases hl

/-- A host's turn that answers a next state is one of the cases. -/
theorem stepCase_of_hostAccess {s t : State} {a : Access} (turn : turnOf s = .host a)
    (h : hostAccess a (begun s) = .next t) : StepCase s t := by
  obtain ⟨e, d, rfl⟩ | ⟨r, off, -, -, rfl⟩ | ⟨r, off, v, rfl, hr, -, hro, hlock, rfl⟩ |
    ⟨off, v, e, -, -, -, rfl⟩ | ⟨off, v, i, rfl, hr, idle, -, passes, rfl⟩ := hostAccess_next_cases h
  · exact .quiet (dataView_raiseError (begun s) e) fun wf => ErrorRecordWf.raiseError (s := begun s) wf e
  · exact .quiet rfl id
  · obtain rfl := offset_eq_of_regAt hr
    cases hl : lockedWhileBusy r with
    | true => exact .written turn (hlock hl) hl
    | false =>
      obtain rfl := eq_status_of_writable_unlocked hro hl
      exact .quiet (dataView_writeStatus (begun s) v) fun wf => ErrorRecordWf.writeStatus (s := begun s) wf v
  · exact .quiet (dataView_raiseError (respond .okay none (begun s)) e) fun wf =>
      ErrorRecordWf.raiseError (s := respond .okay none (begun s)) wf e
  · obtain rfl := offset_eq_of_regAt hr
    exact .accepted turn idle passes

/-- A core's turn that answers a next state is one of the cases. -/
theorem stepCase_of_coreTurn {s t : State} (turn : turnOf s = .core) (h : coreTurn (begun s) = .next t) :
    StepCase s t := by
  obtain ⟨-, rfl⟩ | ⟨busy, i, u, pend, effect, rfl⟩ := coreTurn_cases h
  · exact .quiet rfl id
  · exact .completion ⟨turn, busy, pend⟩ effect

/-- Every step is one of the cases. -/
theorem stepCase_of_step {s t : State} (h : step s = .next t) : StepCase s t := by
  obtain ⟨hin, hs⟩ | ⟨a, rest, hin, hs⟩ | ⟨rest, hin, hs⟩ := step_cases s
  · have turn : turnOf s = .core := by obtain hin | ⟨rest, hin⟩ := hin <;> simp [turnOf, hin]
    exact stepCase_of_coreTurn turn (hs ▸ h)
  · exact stepCase_of_hostAccess (by simp [turnOf, hin]) (hs ▸ h)
  · rw [hs] at h
    cases h
    exact .reset (by simp [turnOf, hin])

end Sys2Proof.Machine
end

section
/-! The invariant of the reachable states (Safety.lean): it holds at reset, and each operation of a step keeps it. -/

namespace Sys2Proof.Machine

open Sys2Proof.Claims

/-- The accept checks read no field outside the data view (R195). -/
theorem accepted_dataView {i : Instr} {s : State} : Accepted i (dataView s) ↔ Accepted i s :=
  ⟨fun ⟨index, a, b, key⟩ => ⟨index, a, b, key⟩, fun ⟨index, a, b, key⟩ => ⟨index, a, b, key⟩⟩

/-- The invariant is about the data view, but for its clauses on the error record. -/
theorem inv_iff_dataView {s : State} : s.Inv ↔ (dataView s).Inv ∧ ErrorRecordWf s where
  mp h :=
    ⟨{ h with
        errIffCode := by simp [dataView]
        codeAssigned := by simp [dataView]
        pendAccepted := fun i hp => accepted_dataView.mpr (h.pendAccepted i hp) },
      h.errIffCode, h.codeAssigned⟩
  mpr := fun ⟨h, err, code⟩ =>
    { h with
      errIffCode := err
      codeAssigned := code
      pendAccepted := fun i hp => accepted_dataView.mp (h.pendAccepted i hp) }

/-- A state with the same data view and a well-formed error record meets the invariant too. -/
theorem State.Inv.of_dataView {s t : State} (h : s.Inv) (same : dataView t = dataView s) (record : ErrorRecordWf t) :
    t.Inv :=
  inv_iff_dataView.mpr ⟨same ▸ (inv_iff_dataView.mp h).1, record⟩

theorem State.Inv.errorRecordWf {s : State} (h : s.Inv) : ErrorRecordWf s := ⟨h.errIffCode, h.codeAssigned⟩

/-- While BUSY = 0 no command is in PEND (R37). -/
theorem State.Inv.pend_none_of_idle {s : State} (h : s.Inv) (idle : s.busy = false) : s.pend = none := by
  by_contra hp
  simp [h.busyIffPend.mpr hp] at idle

/-- Settles O48: each clause on the reset values of R41. -/
theorem invariantHoldsAtReset : Obligations.InvariantHoldsAtReset where
  busyIffPend := by simp [State.reset]
  busyNotDone := fun _ => rfl
  errIffCode := ⟨fun _ => rfl, fun _ => rfl⟩
  codeAssigned := by simp [State.reset]
  keySchedule := nofun
  pendAccepted := nofun

/-- Reset establishes the invariant (R41). -/
theorem resetCore_inv (s : State) : (resetCore s).Inv :=
  State.Inv.of_dataView invariantHoldsAtReset rfl invariantHoldsAtReset.errorRecordWf

theorem State.Inv.begun {s : State} (h : s.Inv) : (begun s).Inv := h.of_dataView rfl h.errorRecordWf

theorem State.Inv.respond {s : State} (h : s.Inv) (k : RespKind) (d : Option Word) : (respond k d s).Inv :=
  h.of_dataView rfl h.errorRecordWf

/-- Accepting a command that passes its checks keeps the invariant (R210). -/
theorem State.Inv.accept {s : State} {i : Instr} (h : s.Inv) (passes : Accepted i s) : (accept i s).Inv where
  busyIffPend := by simp
  busyNotDone := fun _ => rfl
  errIffCode := h.errIffCode
  codeAssigned := h.codeAssigned
  keySchedule := h.keySchedule
  pendAccepted := fun j hp => by
    obtain rfl : i = j := Option.some.inj hp
    exact ⟨passes.indexInRange, passes.byteA, passes.byteB, passes.key⟩

/-- A host write to an idle core keeps the invariant: a KEY write because it clears KEY_VALID (R60), the others because no
command is waiting to read what they change (R37). -/
theorem State.Inv.writeReg {s : State} (h : s.Inv) (idle : s.busy = false) (r : RegName) (v : Word) :
    (writeReg r v s).Inv := by
  have noCommand : ∀ i, s.pend = some i → Accepted i (Machine.writeReg r v s) := by
    simp [h.pend_none_of_idle idle]
  cases r with
  | key n => exact { h with keySchedule := nofun, pendAccepted := noCommand }
  | din n | opa | opb => exact { h with pendAccepted := noCommand }
  | dout n | res | rkw i | cmd => exact h
  | status => exact h.of_dataView (dataView_writeStatus s v) (h.errorRecordWf.writeStatus v)

/-- A completion keeps the invariant: KEYEXP leaves RK = KeyExpansion(KEY) with KEY_VALID = 1 (R164), and every other command
leaves KEY, RK and KEY_VALID as they are. -/
theorem State.Inv.retire_effectOf {s u : State} {i : Instr} (h : s.Inv) (effect : effectOf i s = .next u) :
    (retire u).Inv := by
  obtain ⟨frame, -, -, -, keepsKey, expands⟩ := effectOf_frame effect
  have key : u.key = s.key := by rw [frame]
  have err : u.err = s.err := by rw [frame]
  have errCode : u.errCode = s.errCode := by rw [frame]
  refine ⟨by simp, nofun, ?errIffCode, ?codeAssigned, ?keySchedule, nofun⟩
  case errIffCode => simpa [err, errCode] using h.errIffCode
  case codeAssigned => simpa [errCode] using h.codeAssigned
  case keySchedule =>
    have sameKey : keyBytes (retire u) = keyBytes s := congrArg bytesOf key
    rw [sameKey, retire_keyValid, retire_rk]
    by_cases hi : i = .keyexp
    · exact fun _ => (expands hi).1
    · obtain ⟨rk, keyValid⟩ := keepsKey hi
      rw [rk, keyValid]
      exact h.keySchedule

/-- Settles O49: by the cases of a step. -/
theorem stepKeepsInvariant : Obligations.StepKeepsInvariant := by
  unfold Obligations.StepKeepsInvariant
  intro s t h hstep
  cases stepCase_of_step hstep with
  | reset => exact resetCore_inv _
  | quiet same record => exact h.of_dataView same (record h.errorRecordWf)
  | completion _ effect => exact h.begun.retire_effectOf effect
  | written _ idle _ => exact (h.begun.writeReg idle _ _).respond _ _
  | accepted _ _ passes =>
    exact (h.begun.respond _ _).accept ⟨passes.indexInRange, passes.byteA, passes.byteB, passes.key⟩

end Sys2Proof.Machine
end

section
/-! What changes each field of the state, by the cases of a step (10_state.md R22-R27, R30-R37). -/

namespace Sys2Proof.Machine

open Sys2Proof.Claims

/-- A register write changes no other register, but for KEY_VALID and the error record in STATUS (R57, R60, R61). -/
theorem readReg_writeReg_ne {r r' : RegName} (hne : r' ≠ r) (hstatus : r' ≠ .status) (v : Word) (s : State) :
    readReg r' (writeReg r v s) = readReg r' s := by
  cases r with
  | key m =>
    cases r' with
    | key n =>
      have other : m.val ≠ n.val := fun hmn => hne (congrArg RegName.key (Fin.ext hmn.symm))
      exact Vector.getElem_set_ne m.isLt n.isLt other
    | status => exact absurd rfl hstatus
    | din _ | dout _ | opa | opb | res | cmd | rkw _ => rfl
  | din m =>
    cases r' with
    | din n =>
      have other : m.val ≠ n.val := fun hmn => hne (congrArg RegName.din (Fin.ext hmn.symm))
      exact Vector.getElem_set_ne m.isLt n.isLt other
    | status => exact absurd rfl hstatus
    | key _ | dout _ | opa | opb | res | cmd | rkw _ => rfl
  | opa =>
    cases r' with
    | opa => exact absurd rfl hne
    | status => exact absurd rfl hstatus
    | key _ | din _ | dout _ | opb | res | cmd | rkw _ => rfl
  | opb =>
    cases r' with
    | opb => exact absurd rfl hne
    | status => exact absurd rfl hstatus
    | key _ | din _ | dout _ | opa | res | cmd | rkw _ => rfl
  | status => cases r' <;> simp_all [readReg, writeReg]
  | dout _ | res | cmd | rkw _ => rfl

/-- A read of KEY, DIN, OPA, OPB or CMD sees nothing but the host's operands (R58). -/
theorem readReg_congr {r : RegName} {s t : State} (hl : lockedWhileBusy r = true) (key : t.key = s.key)
    (din : t.din = s.din) (opa : t.opa = s.opa) (opb : t.opb = s.opb) : readReg r t = readReg r s := by
  cases r with
  | key n => exact congrArg (·[n]) key
  | din n => exact congrArg (·[n]) din
  | opa => exact opa
  | opb => exact opb
  | cmd => rfl
  | dout _ | res | rkw _ | status => cases hl

/-- Where a step that is not reset changes KEY, DIN, OPA or OPB, it is the host's write to that register while BUSY = 0. -/
theorem write_of_readReg_ne {s t : State} (hstep : step s = .next t) (noReset : turnOf s ≠ .reset) {r : RegName}
    (hl : lockedWhileBusy r = true) (h : readReg r t ≠ readReg r s) : s.busy = false ∧ WritesAt r.offset (turnOf s) := by
  cases stepCase_of_step hstep with
  | reset turn => exact absurd turn noReset
  | quiet same =>
    exact (h (readReg_congr hl (congrArg State.key same :) (congrArg State.din same :) (congrArg State.opa same :)
      (congrArg State.opb same :))).elim
  | completion _ effect =>
    obtain ⟨frame, -⟩ := effectOf_frame effect
    exact (h (readReg_congr hl (congrArg State.key frame :) (congrArg State.din frame :)
      (congrArg State.opa frame :) (congrArg State.opb frame :))).elim
  | @written r' v turn idle =>
    obtain rfl : r = r' := by
      by_contra hne
      refine h ?_
      calc readReg r (respond .okay none (writeReg r' v (begun s)))
          = readReg r (writeReg r' v (begun s)) := readReg_congr hl rfl rfl rfl rfl
        _ = readReg r (begun s) := readReg_writeReg_ne hne (fun hr => by simp [hr, lockedWhileBusy] at hl) v _
        _ = readReg r s := readReg_congr hl rfl rfl rfl rfl
    exact ⟨idle, turn ▸ ⟨rfl, rfl⟩⟩
  | accepted => exact (h (readReg_congr hl rfl rfl rfl rfl)).elim

/-- A register write clears KEY_VALID, if it is to a KEY register (R60), or leaves it as it is. -/
theorem writeReg_keyValid_eq_or (r : RegName) (v : Word) (s : State) :
    (writeReg r v s).keyValid = s.keyValid ∨ (∃ n, r = .key n) ∧ (writeReg r v s).keyValid = false := by
  cases r with
  | key n => exact .inr ⟨⟨n, rfl⟩, rfl⟩
  | status => exact .inl (writeStatus_keyValid s v)
  | din _ | dout _ | opa | opb | res | cmd | rkw _ => exact .inl rfl

/-- A 4-byte write at a KEY register's offset is a KEY write (R51). -/
theorem writesKey_offset (n : Fin 4) (v : Word) : WritesKey (.host (.write (RegName.key n).offset 4 v)) := by
  have offset : (RegName.key n).offset.toNat = 4 * n.val := by
    simp only [RegName.offset, BitVec.toNat_ofNat]
    omega
  exact ⟨by omega, by omega, rfl⟩

/-- Settles O53: only a completion changes a result, and its frame says which. -/
theorem onlyCompletionsWriteResults : Obligations.OnlyCompletionsWriteResults := by
  unfold Obligations.OnlyCompletionsWriteResults
  intro s t hstep noReset
  cases stepCase_of_step hstep with
  | reset turn => exact absurd turn noReset
  | quiet same =>
    exact ⟨fun h => absurd (congrArg State.dout same) h, fun h => absurd (congrArg State.res same) h,
      fun h => absurd (congrArg State.stateReg same) h, fun h => absurd (congrArg State.rk same) h⟩
  | @completion i u completes effect =>
    obtain ⟨-, res, stateReg, dout, keepsKey, -⟩ := effectOf_frame effect
    refine ⟨fun h => ⟨i, completes, ?dout⟩, fun h => ⟨i, completes, ?res⟩, fun h => ⟨i, completes, ?stateReg⟩,
      fun h => ?rk⟩
    case dout => exact eq_true_of_ne_false fun no => h (dout no)
    case res => exact eq_true_of_ne_false fun no => h (res no)
    case stateReg => exact eq_true_of_ne_false fun no => h (stateReg no)
    case rk =>
      obtain rfl : i = .keyexp := by
        by_contra no
        exact h (keepsKey no).1
      exact completes
  | written => simp [begun]
  | accepted => simp [begun]

/-- What a step can make of KEY_VALID (R33): it stays, reset clears it, KEYEXP's completion sets it, or a
KEY write clears it. -/
theorem step_keyValid_cases {s t : State} (hstep : step s = .next t) :
    t.keyValid = s.keyValid ∨ (turnOf s = .reset ∧ t.keyValid = false) ∨
    (Completes .keyexp s ∧ t.keyValid = true ∧ t.rk = keyExpansion (keyBytes s)) ∨
    (WritesKey (turnOf s) ∧ s.busy = false ∧ t.keyValid = false) := by
  cases stepCase_of_step hstep with
  | reset turn => exact .inr (.inl ⟨turn, rfl⟩)
  | quiet same => exact .inl (congrArg State.keyValid same :)
  | @completion i u completes effect =>
    obtain ⟨-, -, -, -, keepsKey, expands⟩ := effectOf_frame effect
    by_cases hi : i = .keyexp
    · obtain ⟨rk, set⟩ := expands hi
      exact .inr (.inr (.inl ⟨hi ▸ completes, set, rk⟩))
    · exact .inl (keepsKey hi).2
  | @written r v turn idle =>
    obtain same | ⟨⟨n, rfl⟩, cleared⟩ := writeReg_keyValid_eq_or r v (begun s)
    · exact .inl same
    · exact .inr (.inr (.inr ⟨turn ▸ writesKey_offset n v, idle, cleared⟩))
  | accepted => exact .inl rfl

/-- Settles O54: by what a step can make of KEY_VALID. -/
theorem keyValidChangesOnlyAsSaid : Obligations.KeyValidChangesOnlyAsSaid := by
  unfold Obligations.KeyValidChangesOnlyAsSaid
  intro s t hstep
  obtain same | ⟨turn, cleared⟩ | ⟨completes, set, rk⟩ | ⟨write, idle, cleared⟩ := step_keyValid_cases hstep
  · exact ⟨fun low high => by simp [same, low] at high, fun high low => by simp [same, high] at low⟩
  · exact ⟨fun _ high => by simp [cleared] at high, fun _ _ => .inr turn⟩
  · exact ⟨fun _ _ => ⟨completes, rk⟩, fun _ low => by simp [set] at low⟩
  · exact ⟨fun _ high => by simp [cleared] at high, fun _ _ => .inl ⟨write, idle⟩⟩

/-- Settles O55: each of the registers as a register of the window. -/
theorem onlyTheHostWritesOperands : Obligations.OnlyTheHostWritesOperands := by
  unfold Obligations.OnlyTheHostWritesOperands
  intro s t hstep noReset
  exact ⟨fun n => write_of_readReg_ne (r := .key n) hstep noReset rfl,
    fun n => write_of_readReg_ne (r := .din n) hstep noReset rfl,
    write_of_readReg_ne (r := .opa) hstep noReset rfl, write_of_readReg_ne (r := .opb) hstep noReset rfl⟩

/-- Settles O56: accept sets BUSY and clears DONE, completion does the reverse, and nothing else touches them. -/
theorem busyAndDoneLifecycle : Obligations.BusyAndDoneLifecycle := by
  unfold Obligations.BusyAndDoneLifecycle
  intro s t _ hstep noReset
  cases stepCase_of_step hstep with
  | reset turn => exact absurd turn noReset
  | quiet same =>
    have busy : t.busy = s.busy := (congrArg State.busy same :)
    have done : t.done = s.done := (congrArg State.done same :)
    simp_all
  | completion completes =>
    have ⟨_, busy, _⟩ := completes
    exact ⟨fun idle => by simp [busy] at idle, fun _ _ => ⟨⟨_, completes⟩, rfl⟩, fun _ _ => ⟨_, completes⟩,
      fun _ => nofun⟩
  | written => simp_all [begun]
  | accepted turn idle =>
    exact ⟨fun _ _ => ⟨turn ▸ ⟨rfl, rfl⟩, rfl, nofun⟩, fun busy => by simp [idle] at busy, fun _ => nofun,
      fun _ _ => ⟨idle, rfl⟩⟩

end Sys2Proof.Machine
end

section
/-! The bus checks of R57 in their order (20_memory.md R57-R62): one rule per outcome of a host access, each said once. -/

namespace Sys2Proof.Machine

/-- A 4-byte access at a register's offset reaches that register (R51, R57). -/
@[simp] theorem accessed_offset (r : RegName) : accessed r.offset 4 = some r := by
  simp [accessed]

/-- An access reaches no register if it is of another width, or if its offset is mapped to none (R57). -/
theorem accessed_eq_none_iff {off : BitVec 9} {n : Nat} : accessed off n = none ↔ n ≠ 4 ∨ regAt off = none := by
  by_cases hn : n = 4 <;> simp [accessed, hn]

/-- An access that reaches a register is a 4-byte access at the register's offset. -/
theorem of_accessed_eq_some {off : BitVec 9} {n : Nat} {r : RegName} (h : accessed off n = some r) :
    r.offset = off ∧ n = 4 := by
  obtain ⟨width, mapped⟩ := Option.ite_none_right_eq_some.mp h
  exact ⟨offset_eq_of_regAt mapped, width⟩

/-- What is recorded does not depend on the bus response. -/
theorem raiseError_respond (e : ErrName) (k : RespKind) (d : Option Word) (s : State) :
    raiseError e (respond k d s) = respond k d (raiseError e s) := by
  cases recordedBefore : s.err <;> simp [raiseError, respond, recordedBefore]

section
variable {off : BitVec 9} {n : Nat} {r : RegName} {s : State}

/-- A read that reaches no register is BAD_ACCESS and returns 0 (R57, R58). -/
theorem hostAccess_read_badAccess (h : accessed off n = none) :
    hostAccess (.read off n) s = .next (busError .badAccess (some 0) s) := by
  simp [hostAccess, busRead, h]

/-- A write that reaches no register is BAD_ACCESS (R57). -/
theorem hostAccess_write_badAccess (h : accessed off n = none) (v : Word) :
    hostAccess (.write off n v) s = .next (busError .badAccess none s) := by
  simp [hostAccess, busWrite, h]

/-- A read of a register returns its value (R58). -/
theorem hostAccess_read_offset (r : RegName) (s : State) :
    hostAccess (.read r.offset 4) s = .next (respond .okay (some (readReg r s)) s) := by
  simp [hostAccess, busRead]

/-- A write to a read-only register is BAD_ACCESS (R57). -/
theorem hostAccess_write_readOnly (hro : readOnly r = true) (v : Word) :
    hostAccess (.write r.offset 4 v) s = .next (busError .badAccess none s) := by
  simp [hostAccess, busWrite, hro]

/-- A write to a locked register while BUSY = 1 is rejected with BUSY (R59). -/
theorem hostAccess_write_locked (hro : readOnly r = false) (hl : lockedWhileBusy r = true) (hb : s.busy = true)
    (v : Word) : hostAccess (.write r.offset 4 v) s = .next (busError .busy none s) := by
  simp [hostAccess, busWrite, hro, hl, hb]

/-- Every other write, but for one to CMD, takes effect (R57). -/
theorem hostAccess_write_register (hro : readOnly r = false) (hl : lockedWhileBusy r = true → s.busy = false)
    (hcmd : r ≠ .cmd) (v : Word) :
    hostAccess (.write r.offset 4 v) s = .next (respond .okay none (writeReg r v s)) := by
  have passes : (lockedWhileBusy r && s.busy) = false := by simpa using hl
  simp [hostAccess, busWrite, hro, passes, hcmd]

end

/-- A STATUS write takes effect in every state (R59, R61). -/
theorem hostAccess_write_status (s : State) (v : Word) :
    hostAccess (.write (RegName.offset .status) 4 v) s = .next (respond .okay none (writeStatus v s)) :=
  hostAccess_write_register (r := .status) rfl nofun nofun v

/-- Presenting a command word to an idle core leaves the bus response as it is (R199). -/
theorem presentCommand_idle_resp {s : State} (w : Word) (hb : s.busy = false) :
    ∃ t, presentCommand w s = .next t ∧ t.resp = s.resp := by
  obtain ⟨e, h⟩ | ⟨i, -, -, h⟩ := presentCommand_idle (w := w) hb
  · exact ⟨_, h, raiseError_resp s e⟩
  · exact ⟨_, h, accept_resp s i⟩

end Sys2Proof.Machine
end

section
/-! Which accesses get ERROR (20_memory.md R52, R53, R62). -/

namespace Sys2Proof.Machine

open Sys2Proof.Claims

/-- No register's offset is one of the unmapped ones (R51, R52). -/
theorem not_unmapped_offset (r : RegName) : ¬ Unmapped r.offset := by
  unfold Unmapped
  cases r with
  | key n | din n | dout n => revert n; decide
  | rkw i => revert i; decide
  | opa | opb | res | cmd | status => decide

/-- The unmapped offsets of R52 are mapped to no register. -/
theorem regAt_eq_none_of_unmapped {off : BitVec 9} (h : Unmapped off) : regAt off = none := by
  refine Option.eq_none_iff_forall_ne_some.mpr fun r hr => ?_
  rw [← offset_eq_of_regAt hr] at h
  exact not_unmapped_offset r h

/-- Settles O39: an access of another width or at an unmapped offset reaches no register. -/
theorem badAccessIsRejected : Obligations.BadAccessIsRejected := by
  unfold Obligations.BadAccessIsRejected
  intro s off n v bad
  have noRegister : accessed off n = none := accessed_eq_none_iff.mpr (bad.imp_right regAt_eq_none_of_unmapped)
  exact ⟨hostAccess_read_badAccess noRegister, hostAccess_write_badAccess noRegister v⟩

/-- A read is an error case exactly if it reaches no register (R57). -/
theorem errorCase_read_iff {off : BitVec 9} {n : Nat} {s : State} :
    ErrorCase (.read off n) s ↔ accessed off n = none :=
  accessed_eq_none_iff.symm

/-- A write that reaches no register is an error case (R57). -/
theorem errorCase_write_of_accessed_none {off : BitVec 9} {n : Nat} (h : accessed off n = none) (v : Word) (s : State) :
    ErrorCase (.write off n v) s :=
  (accessed_eq_none_iff.mp h).imp_right fun unmapped r hr => by simp [unmapped] at hr

/-- A write at a register's offset is an error case if the register is read-only, or locked while BUSY = 1 (R57). -/
theorem errorCase_write_offset {r : RegName} {v : Word} {s : State} :
    ErrorCase (.write r.offset 4 v) s ↔ readOnly r = true ∨ (lockedWhileBusy r = true ∧ s.busy = true) := by
  simp [ErrorCase]

/-- The response to a read (R62). -/
theorem hostAccess_read_answer (off : BitVec 9) (n : Nat) (s : State) :
    ∃ t k d, hostAccess (.read off n) s = .next t ∧ t.resp = some ⟨k, d⟩ ∧
      (k = .error ↔ ErrorCase (.read off n) s) ∧ (k = .error → d = some 0) := by
  cases h : accessed off n with
  | none =>
    exact ⟨_, .error, _, hostAccess_read_badAccess h, rfl, iff_of_true rfl (errorCase_read_iff.mpr h), fun _ => rfl⟩
  | some r =>
    obtain ⟨rfl, rfl⟩ := of_accessed_eq_some h
    exact ⟨_, .okay, _, hostAccess_read_offset r s, rfl, by simp [errorCase_read_iff], nofun⟩

/-- The response to a write, by the bus checks in their order (R57, R62). -/
theorem hostAccess_write_answer (off : BitVec 9) (n : Nat) (v : Word) (s : State) :
    ∃ t k, hostAccess (.write off n v) s = .next t ∧ t.resp = some ⟨k, none⟩ ∧
      (k = .error ↔ ErrorCase (.write off n v) s) := by
  cases h : accessed off n with
  | none =>
    exact ⟨_, .error, hostAccess_write_badAccess h v, rfl,
      iff_of_true rfl (errorCase_write_of_accessed_none h v s)⟩
  | some r =>
    obtain ⟨rfl, rfl⟩ := of_accessed_eq_some h
    by_cases hro : readOnly r = true
    · exact ⟨_, .error, hostAccess_write_readOnly hro v, rfl, iff_of_true rfl (errorCase_write_offset.mpr (.inl hro))⟩
    rw [Bool.not_eq_true] at hro
    by_cases locked : lockedWhileBusy r = true ∧ s.busy = true
    · obtain ⟨hl, busy⟩ := locked
      exact ⟨_, .error, hostAccess_write_locked hro hl busy v, rfl,
        iff_of_true rfl (errorCase_write_offset.mpr (.inr ⟨hl, busy⟩))⟩
    have noError : ¬ ErrorCase (.write r.offset 4 v) s := by simp [errorCase_write_offset, hro, locked]
    have passes : lockedWhileBusy r = true → s.busy = false := by simpa using locked
    by_cases hcmd : r = .cmd
    · subst hcmd
      obtain ⟨t, presented, resp⟩ := presentCommand_idle_resp (s := respond .okay none s) v (passes rfl)
      exact ⟨t, .okay, (hostAccess_write_cmd_idle v (passes rfl)).trans presented, resp, iff_of_false nofun noError⟩
    · exact ⟨_, .okay, hostAccess_write_register hro passes hcmd v, rfl, iff_of_false nofun noError⟩

/-- Settles O41: a read and a write each by its response. -/
theorem errorResponseExactlyInErrorCases : Obligations.ErrorResponseExactlyInErrorCases := by
  unfold Obligations.ErrorResponseExactlyInErrorCases
  intro s a
  cases a with
  | read off n =>
    obtain ⟨t, k, d, next, resp, error, zero⟩ := hostAccess_read_answer off n s
    exact ⟨t, k, d, next, resp, error, fun _ _ _ => zero, nofun⟩
  | write off n v =>
    obtain ⟨t, k, next, resp, error⟩ := hostAccess_write_answer off n v s
    exact ⟨t, k, none, next, resp, error, nofun, fun _ _ _ _ => rfl⟩

end Sys2Proof.Machine
end

section
/-! A busy command and the host accesses before its completion (20_memory.md R59, R64, R69): they leave the data view as it
is, and the completion reads nothing else. -/

namespace Sys2Proof.Machine

/-- While BUSY = 1 a host access answers a next state with the same data view (R59, R69). -/
theorem hostAccess_busy_dataView {s : State} (a : Access) (busy : s.busy = true) :
    ∃ t, hostAccess a s = .next t ∧ dataView t = dataView s := by
  obtain ⟨e, d, h⟩ | ⟨r, off, -, -, h⟩ | ⟨r, off, v, -, -, -, hro, lock, h⟩ | ⟨off, v, -, -, idle, -⟩ :=
    hostAccess_cases a s
  · exact ⟨_, h, dataView_raiseError s e⟩
  · exact ⟨_, h, rfl⟩
  · have unlocked : lockedWhileBusy r = false := by
      rw [← Bool.not_eq_true]
      exact fun hl => by simp [lock hl] at busy
    obtain rfl := eq_status_of_writable_unlocked hro unlocked
    exact ⟨_, h, dataView_writeStatus s v⟩
  · simp [idle] at busy

/-- A host access takes no turn but its own. -/
theorem hostAccess_inputs {a : Access} {s t : State} (h : hostAccess a s = .next t) : t.inputs = s.inputs := by
  obtain ⟨e, d, rfl⟩ | ⟨r, off, -, -, rfl⟩ | ⟨r, off, v, -, -, -, -, -, rfl⟩ | ⟨off, v, e, -, -, -, rfl⟩ |
    ⟨off, v, i, -, -, -, -, -, rfl⟩ := hostAccess_next_cases h
  · exact raiseError_inputs s e
  · rfl
  · exact writeReg_inputs s r v
  · exact raiseError_inputs _ e
  · rfl

/-- One more step at the end of a run. -/
theorem runSteps_succ_of_next {k : Nat} {s t : State} (h : runSteps k s = .next t) : runSteps (k + 1) s = step t := by
  induction k generalizing s with
  | zero =>
    cases h
    cases hs : step t <;> simp [runSteps, hs]
  | succ k ih =>
    cases hs : step s with
    | next u =>
      simp only [runSteps, hs] at h
      simpa only [runSteps, hs] using ih h
    | fault f => simp [runSteps, hs] at h
    | refused r => simp [runSteps, hs] at h

/-- While BUSY = 1, a run of host accesses changes nothing of the data view and uses up their turns (R59, R69). -/
theorem runSteps_busy_hostAccesses {s : State} {accesses : List Access} {rest : List Turn} (busy : s.busy = true)
    (inputs : s.inputs = accesses.map .host ++ rest) :
    ∃ t, runSteps accesses.length s = .next t ∧ dataView t = dataView s ∧ t.inputs = rest := by
  induction accesses generalizing s with
  | nil => exact ⟨s, rfl, rfl, inputs⟩
  | cons a accesses ih =>
    obtain ⟨u, access, sameU⟩ :=
      hostAccess_busy_dataView (s := { s with inputs := accesses.map .host ++ rest, resp := none }) a busy
    have first : step s = .next u := (step_of_host inputs).trans access
    have stillBusy : u.busy = true := (congrArg State.busy sameU :).trans busy
    obtain ⟨t, run, sameT, inputsT⟩ := ih stillBusy (hostAccess_inputs access)
    exact ⟨t, by simpa [runSteps, first] using run, sameT.trans sameU, inputsT⟩

/-- A command's effect reads no field outside the data view and changes none. -/
theorem effectOf_dataView {i : Instr} {s u : State} (h : effectOf i s = .next u) :
    effectOf i (dataView s) = .next (dataView u) := by
  cases i with
  | rcon k =>
    simp only [effectOf] at h ⊢
    cases hc : rconTable[k.toNat]? with
    | none => simp [hc] at h
    | some c => simp only [hc] at h ⊢; cases h; rfl
  | ark k =>
    have sameKey : (dataView s).rk[k.toNat]? = s.rk[k.toNat]? := rfl
    simp only [effectOf, sameKey] at h ⊢
    cases hk : s.rk[k.toNat]? with
    | none => simp [hk] at h
    | some roundKey => simp only [hk] at h ⊢; cases h; rfl
  | gfadd | gfxt | gfmul | sbox | isbox | rotw | subw => cases h; rfl
  | ldst | stst | subb | isubb | shr | ishr | mixc | imixc => cases h; rfl
  | keyexp | enc | dec => cases h; rfl

/-- From states with the same data view a busy command completes to states with the same data view (R211). -/
theorem coreTurn_busy_dataView {i : Instr} {s t : State} (same : dataView t = dataView s) (busy : s.busy = true)
    (pend : s.pend = some i) (passes : Accepted i s) :
    ∃ u v, coreTurn s = .next u ∧ coreTurn t = .next v ∧ dataView v = dataView u := by
  have passesT : Accepted i t := accepted_dataView.mp (same ▸ accepted_dataView.mpr passes)
  obtain ⟨u, effectS⟩ := effectOf_next_of_accepted passes
  obtain ⟨v, effectT⟩ := effectOf_next_of_accepted passesT
  have sameEffect : dataView v = dataView u := by
    have h := effectOf_dataView effectT
    rw [same, effectOf_dataView effectS] at h
    exact (Host.Outcome.next.inj h).symm
  exact ⟨retire u, retire v, coreTurn_complete busy pend effectS,
    coreTurn_complete ((congrArg State.busy same :).trans busy) ((congrArg State.pend same :).trans pend) effectT,
    congrArg retire sameEffect⟩

/-- Settles O52: the accesses keep the data view, and the completion keeps two equal ones equal. -/
theorem resultIndependentOfHostAccesses : Obligations.ResultIndependentOfHostAccesses := by
  unfold Obligations.ResultIndependentOfHostAccesses
  intro s accesses inv busy
  obtain ⟨i, pend⟩ := Option.ne_none_iff_exists'.mp (inv.busyIffPend.mp busy)
  have passes : Accepted i (dataView s) := accepted_dataView.mpr (inv.pendAccepted i pend)
  obtain ⟨r, run, same, inputs⟩ :=
    runSteps_busy_hostAccesses (s := { s with inputs := accesses.map .host ++ [.core] }) busy rfl
  obtain ⟨u, t, completeS, completeR, sameEnd⟩ :=
    coreTurn_busy_dataView (s := { s with inputs := [], resp := none }) (t := { r with inputs := [], resp := none })
      same busy pend (accepted_dataView.mp passes)
  refine ⟨t, u, ?_, ?_, sameEnd⟩
  · calc runSteps (accesses.length + 1) { s with inputs := accesses.map .host ++ [.core] }
        = step r := runSteps_succ_of_next run
      _ = coreTurn { r with inputs := [], resp := none } := step_of_core (.inl inputs)
      _ = .next t := completeR
  · exact (step_of_core (.inl rfl)).trans completeS

end Sys2Proof.Machine
end

section
/-! The registers of the window as the host sees them: reads, the four kinds of accepted write, and the rejected ones
(20_memory.md R57-R61). -/

namespace Sys2Proof.Machine

open Sys2Proof.Claims

/-- A flag is bit 0 of its word. -/
@[simp] theorem flagBit_getElem (b : Bool) {i : Nat} (hi : i < 32) : (flagBit b)[i] = (decide (i = 0) && b) := by
  cases b <;> simp [flagBit]

/-- The layout of STATUS, bit by bit (R29, R58). -/
theorem statusWord_getElem (s : State) {i : Nat} (hi : i < 32) :
    (statusWord s)[i] =
      ((decide (8 ≤ i) && s.errCode.getLsbD (i - 8)) || (decide (i = 3) && s.err) || (decide (i = 2) && s.keyValid) ||
        (decide (i = 1) && s.done) || (decide (i = 0) && s.busy)) := by
  interval_cases i <;> simp [statusWord]

/-- ERRCODE is STATUS[11:8] (R29). -/
theorem statusWord_errCode (s : State) : (statusWord s).extractLsb' 8 4 = s.errCode := by
  refine BitVec.eq_of_getLsbD_eq fun i hi => ?_
  interval_cases i <;> simp [statusWord_getElem]

/-- STATUS[7:4] reads 0 (R29). -/
theorem statusWord_reserved_low (s : State) : (statusWord s).extractLsb' 4 4 = 0 := by
  refine BitVec.eq_of_getLsbD_eq fun i hi => ?_
  interval_cases i <;> simp [statusWord_getElem]

/-- STATUS[31:12] reads 0 (R29). -/
theorem statusWord_reserved_high (s : State) : (statusWord s).extractLsb' 12 20 = 0 := by
  refine BitVec.eq_of_getLsbD_eq fun i hi => ?_
  interval_cases i <;> simp [statusWord_getElem]

/-- Settles O35: the read rule, and STATUS by its bits. -/
theorem readReturnsRegister : Obligations.ReadReturnsRegister := by
  unfold Obligations.ReadReturnsRegister
  intro s r
  refine ⟨hostAccess_read_offset r s, fun n => ⟨rfl, rfl, rfl⟩, rfl, rfl, rfl, rfl, fun i => rfl, ?busy, ?done,
    ?keyValid, ?err, statusWord_errCode s, statusWord_reserved_low s, statusWord_reserved_high s,
    fun off n bad => hostAccess_read_badAccess (accessed_eq_none_iff.mpr bad)⟩
  case busy | done | keyValid | err => simp [readReg, statusWord_getElem]

/-- A command that needs the key fails its last check while KEY_VALID = 0, its index being in range (R197). -/
theorem checkOf_keyNotValid {i : Instr} {s : State} (needs : i.needsKey = true) (wf : i.wf = true)
    (invalid : s.keyValid = false) : checkOf i s = some .keyNotValid := by
  have fails : checkKeyValid s = some .keyNotValid := by simp [checkKeyValid, invalid]
  cases i with
  | enc | dec => exact fails
  | ark k =>
    have inRange : k.toNat ≤ 10 := of_decide_eq_true wf
    simp [checkOf, checkIndex, Nat.not_lt.mpr inRange, fails]
  | gfadd | gfxt | gfmul | sbox | isbox | rotw | subw | rcon _ => cases needs
  | ldst | stst | subb | isubb | shr | ishr | mixc | imixc | keyexp => cases needs

/-- Settles O36: the write rule for KEY, the key check of a presented command, and the cases of KEY_VALID in a step. -/
theorem keyWriteInvalidatesSchedule : Obligations.KeyWriteInvalidatesSchedule := by
  unfold Obligations.KeyWriteInvalidatesSchedule
  refine ⟨fun s n v idle => ?write, fun s w i idle invalid decodes keyed => ?rejected,
    fun s t invalid hstep noKeyexp => ?stays⟩
  case write => exact hostAccess_write_register (r := .key n) rfl (fun _ => idle) nofun v
  case rejected =>
    have needs : i.needsKey = true := by obtain rfl | rfl | ⟨k, rfl⟩ := keyed <;> rfl
    calc hostAccess (.write 0x040 4 w) s
        = presentCommand w (respond .okay none s) := hostAccess_write_cmd_idle w idle
      _ = exec i (respond .okay none s) := presentCommand_of_decode decodes _
      _ = command i (checkOf i) (effectOf i) (respond .okay none s) := exec_eq_command i _
      _ = .next (raiseError .keyNotValid (respond .okay none s)) :=
        command_idle_reject idle (checkOf_keyNotValid needs (decodeCommand_wf decodes) invalid)
      _ = .next (answered .okay none (recorded 5 s)) := congrArg _ (raiseError_respond ..)
  case stays =>
    obtain same | ⟨-, cleared⟩ | ⟨completes, -⟩ | ⟨-, -, cleared⟩ := step_keyValid_cases hstep
    · exact same.trans invalid
    · exact cleared
    · exact absurd completes noKeyexp
    · exact cleared

/-- Settles O37: the write rule for each of the registers. -/
theorem operandWriteStores : Obligations.OperandWriteStores := by
  unfold Obligations.OperandWriteStores
  intro s v idle
  exact ⟨fun n => hostAccess_write_register (r := .din n) rfl (fun _ => idle) nofun v,
    hostAccess_write_register (r := .opa) rfl (fun _ => idle) nofun v,
    hostAccess_write_register (r := .opb) rfl (fun _ => idle) nofun v⟩

/-- Settles O38: the write rule for STATUS. -/
theorem statusWriteClearsOnlyError : Obligations.StatusWriteClearsOnlyError := hostAccess_write_status

/-- Settles O40: the rules for locked and for read-only registers, and the write rule for STATUS. -/
theorem busyWriteIsRejected : Obligations.BusyWriteIsRejected := by
  unfold Obligations.BusyWriteIsRejected
  intro s v
  refine ⟨fun busy r operand => ?locked, fun r result => ?readOnly,
    fun _ => ⟨_, hostAccess_write_status s v, rfl⟩⟩
  case locked =>
    obtain ⟨hro, hl⟩ : readOnly r = false ∧ lockedWhileBusy r = true := by
      obtain ⟨n, rfl⟩ | ⟨n, rfl⟩ | rfl | rfl | rfl := operand <;> exact ⟨rfl, rfl⟩
    exact hostAccess_write_locked hro hl busy v
  case readOnly =>
    have hro : Machine.readOnly r = true := by obtain ⟨n, rfl⟩ | rfl | ⟨i, rfl⟩ := result <;> rfl
    exact hostAccess_write_readOnly hro v

end Sys2Proof.Machine
end

section
/-! The decoder and the encoder (30_encoding.md R70-R80): the decoder's outcomes in the order of its checks, the fields that
determine a word, and the two functions as inverses. -/

namespace Sys2Proof

/-! ### The decoder, check by check -/

section
variable {w : Word} {i : Instr}

/-- Check 1: the opcode is unassigned (R77). -/
theorem decodeCommand_illegalOpcode (unassigned : commandOf (opcField w) (idxField w) = none) :
    decodeCommand w = .error .illegalOpcode := by
  simp [decodeCommand, unassigned]

/-- Check 2: RSV is not 0, or the command has no index and IDX is not 0 (R73, R76). -/
theorem decodeCommand_reservedField (selected : commandOf (opcField w) (idxField w) = some i)
    (reserved : rsvField w ≠ 0 ∨ i.idx ≠ idxField w) : decodeCommand w = .error .reservedField := by
  obtain rsv | idx := reserved
  · simp only [decodeCommand, selected, if_pos rsv]
  · simp only [decodeCommand, selected, if_pos idx, ite_self]

/-- Check 3: the index is out of range (R75). -/
theorem decodeCommand_indexRange (selected : commandOf (opcField w) (idxField w) = some i) (rsv : rsvField w = 0)
    (idx : i.idx = idxField w) (wf : i.wf = false) : decodeCommand w = .error .indexRange := by
  simp [decodeCommand, selected, rsv, idx, wf]

/-- A word that passes the three checks decodes to the command its opcode selects (R71, R74). -/
theorem decodeCommand_ok (selected : commandOf (opcField w) (idxField w) = some i) (rsv : rsvField w = 0)
    (idx : i.idx = idxField w) (wf : i.wf = true) : decodeCommand w = .ok i := by
  simp [decodeCommand, selected, rsv, idx, wf]

/-- A word decodes to a command exactly if its opcode selects the command and it passes the checks. -/
theorem decodeCommand_eq_ok_iff : decodeCommand w = .ok i ↔
    commandOf (opcField w) (idxField w) = some i ∧ rsvField w = 0 ∧ i.idx = idxField w ∧ i.wf = true := by
  refine ⟨fun decodes => ?_, fun ⟨selected, rsv, idx, wf⟩ => decodeCommand_ok selected rsv idx wf⟩
  cases selected : commandOf (opcField w) (idxField w) with
  | none => simp [decodeCommand_illegalOpcode selected] at decodes
  | some j =>
    by_cases reserved : rsvField w ≠ 0 ∨ j.idx ≠ idxField w
    · simp [decodeCommand_reservedField selected reserved] at decodes
    obtain ⟨rsv, idx⟩ : rsvField w = 0 ∧ j.idx = idxField w := by simpa using reserved
    cases wf : j.wf with
    | false => simp [decodeCommand_indexRange selected rsv idx wf] at decodes
    | true =>
      obtain rfl : j = i := by simpa [decodeCommand_ok selected rsv idx wf] using decodes
      exact ⟨rfl, rsv, idx, wf⟩

end

/-! ### The opcode map -/

/-- The opcode map takes each command's opcode and index to the command (R74). -/
theorem commandOf_opc_idx (i : Instr) : commandOf i.opc i.idx = some i := by
  cases i <;> rfl

/-- The opcode map takes no opcode to a command but the command's own (R71, R74): one case per row of the table. -/
theorem opc_of_commandOf {opc : Byte} {idx : BitVec 4} {i : Instr} (h : commandOf opc idx = some i) : i.opc = opc := by
  refine BitVec.eq_of_toNat_eq ?_
  unfold commandOf at h
  split at h
  case h_21 => cases h
  all_goals
    rename_i row
    cases h
    exact row.symm

/-! ### The fields of a word -/

/-- A word is its RSV, IDX and OPC fields, from the left (R70). -/
theorem rsvField_append_idxField_append_opcField (w : Word) : rsvField w ++ (idxField w ++ opcField w) = w := by
  have low : idxField w ++ opcField w = w.extractLsb' 0 12 :=
    BitVec.extractLsb'_append_extractLsb'_eq_extractLsb' rfl
  have whole : rsvField w ++ w.extractLsb' 0 12 = w.extractLsb' 0 32 :=
    BitVec.extractLsb'_append_extractLsb'_eq_extractLsb' rfl
  rw [low, whole, BitVec.extractLsb'_eq_self]

/-- Words with equal fields are equal. -/
theorem word_eq_of_fields {v w : Word} (opc : opcField v = opcField w) (idx : idxField v = idxField w)
    (rsv : rsvField v = rsvField w) : v = w := by
  rw [← rsvField_append_idxField_append_opcField v, opc, idx, rsv, rsvField_append_idxField_append_opcField w]

open Laws.OpcodeFields in
/-- The fields of every command's encoding (R70, R74). -/
theorem encode_fields : ∀ i : Instr, Statement i
  | .gfadd => gfadd | .gfxt => gfxt | .gfmul => gfmul
  | .sbox => sbox | .isbox => isbox | .rotw => rotw | .subw => subw | .rcon k => rcon k
  | .ldst => ldst | .stst => stst | .subb => subb | .isubb => isubb | .shr => shr | .ishr => ishr
  | .mixc => mixc | .imixc => imixc | .ark k => ark k
  | .keyexp => keyexp | .enc => enc | .dec => dec

/-- A word is a command's encoding exactly if it has the command's opcode and index, and RSV = 0. -/
theorem encode_eq_iff {i : Instr} {w : Word} :
    encode i = w ↔ i.opc = opcField w ∧ i.idx = idxField w ∧ rsvField w = 0 := by
  obtain ⟨opc, idx, rsv⟩ := encode_fields i
  constructor
  · rintro rfl
    exact ⟨opc.symm, idx.symm, rsv⟩
  · rintro ⟨opc', idx', rsv'⟩
    exact word_eq_of_fields (opc.trans opc') (idx.trans idx') (rsv.trans rsv'.symm)

/-- Settles O57: both sides say that the word has the command's opcode and index and RSV = 0, and the command is well
formed. -/
theorem decodeExactlyInvertsEncode : Obligations.DecodeExactlyInvertsEncode := by
  unfold Obligations.DecodeExactlyInvertsEncode
  intro w i
  rw [decodeCommand_eq_ok_iff, encode_eq_iff]
  constructor
  · rintro ⟨selected, rsv, idx, wf⟩
    exact ⟨wf, opc_of_commandOf selected, idx, rsv⟩
  · rintro ⟨wf, opc, idx, rsv⟩
    exact ⟨by rw [← opc, ← idx, commandOf_opc_idx], rsv, idx, wf⟩

/-- The encoding of a well-formed command decodes to it (R80). -/
theorem decodeCommand_encode {i : Instr} (wf : i.wf = true) : decodeCommand (encode i) = .ok i :=
  (decodeExactlyInvertsEncode (encode i) i).mpr ⟨wf, rfl⟩

/-- Settles O58: the accepted words are encodings, and each rejected one fails the check of its error. -/
theorem decodeReadsSpecWords : Obligations.DecodeReadsSpecWords :=
  ⟨decodeCommand_encode (i := .gfmul) rfl, decodeCommand_encode (i := .isbox) rfl,
    decodeCommand_encode (i := .rcon 7) rfl, decodeCommand_encode (i := .mixc) rfl,
    decodeCommand_encode (i := .ark 3) rfl, decodeCommand_encode (i := .keyexp) rfl,
    decodeCommand_encode (i := .dec) rfl, decodeCommand_illegalOpcode rfl,
    decodeCommand_reservedField (i := .enc) rfl (.inl (by decide)),
    decodeCommand_indexRange (i := .rcon 10) rfl rfl rfl rfl⟩

end Sys2Proof
end

section
/-! Where a meaning can stop (60_exceptions.md R190, log entry 7): only in the effect of a command whose index does not
exist. -/

namespace Sys2Proof.Machine

/-- Presenting a command answers a next state, and so does turning one away; any other step is the command's completion. -/
theorem command_next_or_completes (i : Instr) (check : State → Option ErrName) (effect : State → Result) (s : State) :
    (∃ t, command i check effect s = .next t) ∨
    (s.busy = true ∧ s.pend = some i ∧ command i check effect s = completeWith effect s) := by
  cases busy : s.busy with
  | false =>
    cases failed : check s with
    | some e => exact .inl ⟨_, command_idle_reject busy failed⟩
    | none => exact .inl ⟨_, command_idle_accept busy failed⟩
  | true =>
    by_cases pend : s.pend = some i
    · exact .inr ⟨rfl, pend, by simp [command, busy, pend]⟩
    · exact .inl ⟨_, command_turned_away busy pend⟩

/-- An effect answers a next state, but for a round constant or a round key that does not exist (R75). -/
theorem effectOf_next_or_fault (i : Instr) (s : State) :
    (∃ u, effectOf i s = .next u) ∨ (effectOf i s = .fault .indexDoesNotExist ∧ i.wf = false) := by
  cases i with
  | rcon k =>
    cases entry : rconTable[k.toNat]? with
    | some c => exact .inl ⟨_, by simp only [effectOf, entry]; rfl⟩
    | none =>
      have outside : 10 ≤ k.toNat := Vector.getElem?_eq_none_iff.mp entry
      exact .inr ⟨by simp only [effectOf, entry], decide_eq_false (by omega)⟩
  | ark k =>
    cases entry : s.rk[k.toNat]? with
    | some roundKey => exact .inl ⟨_, by simp only [effectOf, entry]; rfl⟩
    | none =>
      have outside : 11 ≤ k.toNat := Vector.getElem?_eq_none_iff.mp entry
      exact .inr ⟨by simp only [effectOf, entry], decide_eq_false (by omega)⟩
  | gfadd | gfxt | gfmul | sbox | isbox | rotw | subw => exact .inl ⟨_, rfl⟩
  | ldst | stst | subb | isubb | shr | ishr | mixc | imixc => exact .inl ⟨_, rfl⟩
  | keyexp | enc | dec => exact .inl ⟨_, rfl⟩

/-- Settles O47: what is not a completion answers a next state, and a completion answers as its effect does. -/
theorem meaningsStopOnlyOnMissingIndices : Obligations.MeaningsStopOnlyOnMissingIndices := by
  unfold Obligations.MeaningsStopOnlyOnMissingIndices
  intro i s
  rw [exec_eq_command]
  obtain next | ⟨busy, pend, completes⟩ := command_next_or_completes i (checkOf i) (effectOf i) s
  · exact .inl next
  rw [completes]
  obtain ⟨u, effect⟩ | ⟨effect, illFormed⟩ := effectOf_next_or_fault i s
  · exact .inl ⟨retire u, by simp [completeWith, effect]⟩
  · exact .inr ⟨by simp [completeWith, effect], busy, pend, illFormed⟩

end Sys2Proof.Machine
end

section
/-! The GF256 unit (40_gf256.md R90-R94). Every function of the unit is additive (xor-linear), so two of them are equal once
they agree on the powers of x, which are the bytes with one bit set. -/

namespace Sys2Proof

/-- The `n + 1` low bits of a vector are the `n` low bits plus the next one. -/
theorem setWidth_setWidth_succ_eq_xor {w : Nat} (a : BitVec w) (n : Nat) :
    (a.setWidth (n + 1)).setWidth w =
      (a.setWidth n).setWidth w ^^^ (if a.getLsbD n then BitVec.twoPow w n else 0#w) := by
  refine BitVec.eq_of_getLsbD_eq fun i hi => ?_
  obtain below | rfl | above := Nat.lt_trichotomy i n
  · cases a.getLsbD n <;> simp [below, Nat.lt_succ_of_lt below, below.ne']
  · cases h : a.getLsbD i <;> simp [h, hi, -BitVec.getLsbD_eq_getElem]
  · cases a.getLsbD n <;> simp [above.ne, above.not_gt, Nat.not_lt.mpr (Nat.succ_le_of_lt above)]

/-- A property of all bit vectors: it holds of 0 and of each single bit, and the xor of two keeps it. -/
theorem xorInduction {w : Nat} {P : BitVec w → Prop} (zero : P 0#w) (bit : ∀ i < w, P (BitVec.twoPow w i))
    (xor : ∀ a b, P a → P b → P (a ^^^ b)) (a : BitVec w) : P a := by
  have lowBits : ∀ n ≤ w, P ((a.setWidth n).setWidth w) := by
    intro n hn
    induction n with
    | zero =>
      have noBits : (a.setWidth 0).setWidth w = 0#w := BitVec.eq_of_getLsbD_eq fun i hi => by simp
      exact noBits ▸ zero
    | succ n ih =>
      rw [setWidth_setWidth_succ_eq_xor]
      refine xor _ _ (ih (by omega)) ?_
      cases a.getLsbD n with
      | false => exact zero
      | true => exact bit n (by omega)
  simpa using lowBits w le_rfl

namespace Machine

open Sys2Proof.Claims

/-! ### add and xtimes -/

theorem gfAdd_eq_xor (a b : Byte) : gfAdd a b = a ^^^ b := rfl

/-- xtimes shifts, and adds 0x1B where the bit shifted out was set (R92). -/
theorem xtimes_eq_shift_xor (a : Byte) : xtimes a = (a <<< 1) ^^^ (if a.getLsbD 7 then 0x1B#8 else 0#8) := by
  unfold xtimes
  split <;> simp

/-- xtimes is additive. -/
theorem xtimes_xor (a b : Byte) : xtimes (a ^^^ b) = xtimes a ^^^ xtimes b := by
  have reduction : ∀ p q : Bool, (if (p ^^ q) = true then 0x1B#8 else 0#8) =
      (if p = true then 0x1B#8 else 0#8) ^^^ (if q = true then 0x1B#8 else 0#8) := by decide
  simp only [xtimes_eq_shift_xor, BitVec.shiftLeft_xor_distrib, BitVec.getLsbD_xor, reduction]
  ac_rfl

/-- Repeated xtimes is additive. -/
theorem xtimes_iterate_xor (n : Nat) (a b : Byte) : xtimes^[n] (a ^^^ b) = xtimes^[n] a ^^^ xtimes^[n] b := by
  induction n generalizing a b with
  | zero => rfl
  | succ n ih => simp only [Function.iterate_succ_apply, xtimes_xor, ih]

/-! ### Sums over the set bits of a byte -/

/-- A term that the xor of two bits selects is the sum of what each selects. -/
theorem ite_xor_bit (p q : Bool) (t : Nat) :
    (if (p ^^ q) = true then t else 0) = (if p = true then t else 0) ^^^ (if q = true then t else 0) := by
  cases p <;> cases q <;> simp

/-- The sum (xor) of `term i` over the set bits `i < n` of `b`. -/
def bitSum (b : Byte) (term : Nat → Nat) : Nat → Nat
  | 0 => 0
  | n + 1 => bitSum b term n ^^^ (if b.getLsbD n then term n else 0)

/-- A sum over bits is additive in the byte. -/
theorem bitSum_xor (b c : Byte) (term : Nat → Nat) (n : Nat) :
    bitSum (b ^^^ c) term n = bitSum b term n ^^^ bitSum c term n := by
  induction n with
  | zero => simp [bitSum]
  | succ n ih =>
    simp only [bitSum, ih, BitVec.getLsbD_xor, ite_xor_bit]
    ac_rfl

/-- A sum over bits is additive in its terms. -/
theorem bitSum_xor_terms (b : Byte) (term term' : Nat → Nat) (n : Nat) :
    bitSum b (fun i => term i ^^^ term' i) n = bitSum b term n ^^^ bitSum b term' n := by
  induction n with
  | zero => simp [bitSum]
  | succ n ih =>
    simp only [bitSum, ih]
    split
    · ac_rfl
    · simp

/-- An additive function of a sum over bits is the sum of its values. -/
theorem map_bitSum {f : Nat → Nat} (zero : f 0 = 0) (additive : ∀ p q, f (p ^^^ q) = f p ^^^ f q) (b : Byte)
    (term : Nat → Nat) (n : Nat) : f (bitSum b term n) = bitSum b (fun i => f (term i)) n := by
  induction n with
  | zero => exact zero
  | succ n ih =>
    simp only [bitSum, additive, ih]
    cases b.getLsbD n <;> simp [zero]

/-- Sums over bits with equal terms are equal. -/
theorem bitSum_congr {b : Byte} {term term' : Nat → Nat} {n : Nat} (h : ∀ i < n, term i = term' i) :
    bitSum b term n = bitSum b term' n := by
  induction n with
  | zero => rfl
  | succ n ih => simp only [bitSum, ih fun i hi => h i (by omega), h n (by omega)]

/-! ### multiply -/

/-- After `n` turns of R93's loop, acc is the sum of `a * x^i` over the set bits `i < n` of `b`, and p is `a * x^n`. -/
theorem multiplyStep_foldl_range (a b : Byte) (n : Nat) :
    (((List.range n).foldl (multiplyStep b) (0x00, a)).1.toNat = bitSum b (fun i => (xtimes^[i] a).toNat) n) ∧
    ((List.range n).foldl (multiplyStep b) (0x00, a)).2 = xtimes^[n] a := by
  induction n with
  | zero => exact ⟨rfl, rfl⟩
  | succ n ih =>
    obtain ⟨acc, p⟩ := ih
    simp only [List.range_succ, List.foldl_append, List.foldl_cons, List.foldl_nil, multiplyStep, bitSum, p,
      Function.iterate_succ_apply', and_true, ← acc]
    cases b.getLsbD n <;> simp [gfAdd_eq_xor]

/-- `multiply(a, b)` is the sum of `a * x^i` over the set bits of `b` (R93). -/
theorem toNat_multiply (a b : Byte) : (multiply a b).toNat = bitSum b (fun i => (xtimes^[i] a).toNat) 8 :=
  (multiplyStep_foldl_range a b 8).1

/-- multiply distributes over add on the right (R94). -/
theorem multiply_xor (a b c : Byte) : multiply a (b ^^^ c) = multiply a b ^^^ multiply a c := by
  refine BitVec.eq_of_toNat_eq ?_
  simp only [toNat_multiply, BitVec.toNat_xor, bitSum_xor]

/-- multiply distributes over add on the left. -/
theorem xor_multiply (a b c : Byte) : multiply (a ^^^ b) c = multiply a c ^^^ multiply b c := by
  refine BitVec.eq_of_toNat_eq ?_
  simp only [toNat_multiply, BitVec.toNat_xor, xtimes_iterate_xor, bitSum_xor_terms]

@[simp] theorem multiply_zero (a : Byte) : multiply a 0#8 = 0#8 := rfl

@[simp] theorem zero_multiply (a : Byte) : multiply 0#8 a = 0#8 := by
  simpa using xor_multiply 0#8 0#8 a

@[simp] theorem multiply_one (a : Byte) : multiply a 1#8 = a := BitVec.zero_xor

/-- The loop of R93 adds one term for 0x02, `a * x`. -/
theorem multiply_two (a : Byte) : multiply a 2#8 = xtimes a := BitVec.zero_xor

/-- multiply is commutative (R94): on the powers of x, and both sides are additive in both arguments. -/
theorem multiply_comm (a b : Byte) : multiply a b = multiply b a := by
  have powers : ∀ i j : Fin 8, multiply (BitVec.twoPow 8 i) (BitVec.twoPow 8 j) =
      multiply (BitVec.twoPow 8 j) (BitVec.twoPow 8 i) := by decide
  induction a using xorInduction with
  | zero => simp
  | xor a a' ha ha' => rw [xor_multiply, multiply_xor, ha, ha']
  | bit i hi =>
    induction b using xorInduction with
    | zero => simp
    | xor b b' hb hb' => rw [xor_multiply, multiply_xor, hb, hb']
    | bit j hj => exact powers ⟨i, hi⟩ ⟨j, hj⟩

@[simp] theorem one_multiply (a : Byte) : multiply 1#8 a = a := by
  rw [multiply_comm, multiply_one]

/-- Settles O22: add is xor, and the laws of multiply. -/
theorem fieldLawsHold : Obligations.FieldLawsHold := by
  unfold Obligations.FieldLawsHold
  refine ⟨fun a b c => ⟨rfl, BitVec.xor_comm a b, BitVec.xor_assoc a b c, BitVec.xor_zero, BitVec.xor_self⟩,
    multiply_comm, multiply_xor, fun a => ⟨multiply_one a, multiply_zero a, (multiply_two a).symm⟩⟩

/-! ### Long division by m(x) -/

/-- One turn of the long division by m(x): the term of degree `i` is cancelled. -/
def divisionStep (acc i : Nat) : Nat := if acc.testBit i then acc ^^^ (0x11B <<< (i - 8)) else acc

theorem divisionStep_eq_xor (acc i : Nat) :
    divisionStep acc i = acc ^^^ (if acc.testBit i then 0x11B <<< (i - 8) else 0) := by
  unfold divisionStep
  split <;> simp

/-- The turns of the long division are additive. -/
theorem divisionStep_foldl_xor (degrees : List Nat) (p q : Nat) :
    degrees.foldl divisionStep (p ^^^ q) = degrees.foldl divisionStep p ^^^ degrees.foldl divisionStep q := by
  induction degrees generalizing p q with
  | nil => rfl
  | cons i degrees ih =>
    have turn : divisionStep (p ^^^ q) i = divisionStep p i ^^^ divisionStep q i := by
      simp only [divisionStep_eq_xor, Nat.testBit_xor, ite_xor_bit]
      ac_rfl
    simp only [List.foldl_cons, turn, ih]

/-- The remainder modulo m(x) is additive. -/
theorem polyMod_xor (p q : Nat) : polyMod (p ^^^ q) = polyMod p ^^^ polyMod q :=
  divisionStep_foldl_xor _ p q

/-- One turn of the carry-less product: the term of `b`'s bit `i` is added. -/
def productStep (a b acc i : Nat) : Nat := if b.testBit i then acc ^^^ (a <<< i) else acc

/-- After `n` turns of the carry-less product, acc is the sum over the bits `i < n` of `b`. -/
theorem productStep_foldl_range (a b : Byte) (n : Nat) :
    (List.range n).foldl (productStep a.toNat b.toNat) 0 = bitSum b (fun i => a.toNat <<< i) n := by
  induction n with
  | zero => rfl
  | succ n ih =>
    simp only [List.range_succ, List.foldl_append, List.foldl_cons, List.foldl_nil, ih, productStep, bitSum,
      BitVec.testBit_toNat]
    split <;> simp

/-- The carry-less product is the sum of `a * x^i` over the set bits of `b`, before any reduction. -/
theorem polyProduct_eq_bitSum (a b : Byte) : polyProduct a.toNat b.toNat = bitSum b (fun i => a.toNat <<< i) 8 :=
  productStep_foldl_range a b 8

/-- `i` times xtimes is the product with x^i, reduced modulo m(x) (R92): on the powers of x, and both sides are additive. -/
theorem toNat_xtimes_iterate (a : Byte) {i : Nat} (hi : i < 8) : (xtimes^[i] a).toNat = polyMod (a.toNat <<< i) := by
  have zeroOrPower : ∀ i j : Fin 8, (xtimes^[i] 0#8).toNat = polyMod ((0#8).toNat <<< i.val) ∧
      (xtimes^[i] (BitVec.twoPow 8 j)).toNat = polyMod ((BitVec.twoPow 8 j).toNat <<< i.val) := by decide
  induction a using xorInduction with
  | zero => exact (zeroOrPower ⟨i, hi⟩ 0).1
  | bit j hj => exact (zeroOrPower ⟨i, hi⟩ ⟨j, hj⟩).2
  | xor a b ha hb =>
    rw [xtimes_iterate_xor, BitVec.toNat_xor, BitVec.toNat_xor, Nat.shiftLeft_xor_distrib, polyMod_xor, ha, hb]

/-- multiply is the carry-less product reduced modulo m(x) (R93): the reduction of the sum is the sum of the reduced
terms. -/
theorem toNat_multiply_eq_polyMod (a b : Byte) : (multiply a b).toNat = polyMod (polyProduct a.toNat b.toNat) :=
  calc (multiply a b).toNat
      = bitSum b (fun i => (xtimes^[i] a).toNat) 8 := toNat_multiply a b
    _ = bitSum b (fun i => polyMod (a.toNat <<< i)) 8 := bitSum_congr fun _ hi => toNat_xtimes_iterate a hi
    _ = polyMod (bitSum b (fun i => a.toNat <<< i) 8) := (map_bitSum (by decide) polyMod_xor b _ 8).symm
    _ = polyMod (polyProduct a.toNat b.toNat) := congrArg polyMod (polyProduct_eq_bitSum a b).symm

/-- Settles O21: the reduced product, its case of one xtimes, and R92's two cases. -/
theorem multiplyIsPolynomialProductModM : Obligations.MultiplyIsPolynomialProductModM := by
  unfold Obligations.MultiplyIsPolynomialProductModM
  refine ⟨toNat_multiply_eq_polyMod, fun a => ?timesX, fun a => ?shift⟩
  case timesX =>
    calc (xtimes a).toNat
        = polyMod (a.toNat <<< 1) := toNat_xtimes_iterate a (i := 1) (by decide)
      _ = polyMod (2 * a.toNat) := by rw [Nat.shiftLeft_eq, pow_one, Nat.mul_comm]
  case shift =>
    unfold xtimes
    cases a.getLsbD 7 <;> rfl

end Machine

end Sys2Proof
end

section
/-! The rule template of the commands (40_gf256.md section 2), each part said once for every command: its word, its checks at
accept and its completion; then the commands of the GF256 unit. -/

namespace Sys2Proof.Machine

open Sys2Proof.Claims

/-- A CMD write while BUSY = 1 is rejected with BUSY (R59). -/
theorem busyRejects (word : Word) : BusyRejects word :=
  fun _ busy => hostAccess_write_locked (r := .cmd) rfl rfl busy word

/-- The encoding of a command that its opcode selects whatever the IDX field is: its one word decodes to it, and every
other word of its opcode fails check 2 of R197 (R73, R76). -/
theorem wordRule_encode {i : Instr} (wf : i.wf = true) (noIndex : ∀ idx, commandOf i.opc idx = some i) :
    WordRule i (encode i) := by
  refine ⟨decodeCommand_encode wf, fun w sameOpc other => ?_, busyRejects _⟩
  obtain ⟨opcOfEncode, -, -⟩ := encode_fields i
  have opc : opcField w = i.opc := sameOpc.trans opcOfEncode
  refine decodeCommand_reservedField (i := i) (by rw [opc, noIndex]) ?_
  by_contra fieldsOk
  obtain ⟨rsv, idx⟩ : rsvField w = 0 ∧ i.idx = idxField w := by simpa using fieldsOk
  exact other (encode_eq_iff.mpr ⟨opc.symm, idx, rsv⟩).symm

/-- The life of a command from its check and its effect: rejection by R196, accept by R210, completion by R211. -/
theorem acceptedIf_of_check_effect {i : Instr} {check : State → Option (BitVec 4)} {effect : State → State}
    (checks : ∀ s, (checkOf i s).map ErrName.code = check s) (completes : ∀ s, effectOf i s = .next (effect s)) :
    AcceptedIf i check effect := by
  refine ⟨fun s c idle fails => ?rejected, fun s idle passes => ?accepted, fun s busy pend => ?completed⟩
  all_goals rw [exec_eq_command]
  case rejected =>
    obtain ⟨e, failed, rfl⟩ := Option.map_eq_some_iff.mp ((checks s).trans fails)
    exact command_idle_reject idle failed
  case accepted => exact command_idle_accept idle (Option.map_eq_none_iff.mp ((checks s).trans passes))
  case completed => exact command_complete busy pend (completes s)

/-- Check 4 on OPA has the code of INVALID_BYTE_VALUE (R79, R191). -/
theorem checkByteA_code (s : State) : (checkByteA s).map ErrName.code = byteCheckA s := by
  unfold checkByteA byteCheckA
  by_cases passes : s.opa.extractLsb' 8 24 = 0
  · rw [if_neg (not_not.mpr passes), if_pos passes, Option.map_none]
  · rw [if_pos passes, if_neg passes, Option.map_some, ErrName.code]

/-- Check 4 on OPA and OPB has the code of INVALID_BYTE_VALUE (R79, R191). -/
theorem checkBytesAB_code (s : State) : (checkBytesAB s).map ErrName.code = byteCheckAB s := by
  unfold checkBytesAB byteCheckAB
  by_cases passes : s.opa.extractLsb' 8 24 = 0 ∧ s.opb.extractLsb' 8 24 = 0
  · rw [if_neg fun fails => not_and_or.mpr fails passes, if_pos passes, Option.map_none]
  · rw [if_pos (not_and_or.mp passes), if_neg passes, Option.map_some, ErrName.code]

/-- Settles O1: the rule template, and the corner cases of R95 by the laws of add. -/
theorem gfaddWritesFieldSum : Obligations.GfaddWritesFieldSum :=
  ⟨wordRule_encode (i := .gfadd) rfl fun _ => rfl, acceptedIf_of_check_effect checkBytesAB_code fun _ => rfl,
    fun _ => ⟨BitVec.xor_self, BitVec.xor_zero, BitVec.zero_xor⟩, by decide⟩

/-- Settles O2: the rule template, and the corner cases of R96 by evaluation. -/
theorem gfxtWritesTimesX : Obligations.GfxtWritesTimesX :=
  ⟨wordRule_encode (i := .gfxt) rfl fun _ => rfl, acceptedIf_of_check_effect checkByteA_code fun _ => rfl, by decide⟩

/-- Settles O3: the rule template, and the corner cases of R97 by the laws of multiply and by evaluation. -/
theorem gfmulWritesFieldProduct : Obligations.GfmulWritesFieldProduct :=
  ⟨wordRule_encode (i := .gfmul) rfl fun _ => rfl, acceptedIf_of_check_effect checkBytesAB_code fun _ => rfl,
    fun a => ⟨multiply_zero a, zero_multiply a, multiply_one a, one_multiply a⟩, by decide⟩

end Sys2Proof.Machine
end

section
/-! The rule template of the commands that have no check at accept and of those with an index, beside that of the GF256 unit. -/

namespace Sys2Proof.Machine

open Sys2Proof.Claims

/-- The life of a command that has no check at accept beyond the decoder's: the template with a check that always
passes. -/
theorem alwaysAccepted_of_effect {i : Instr} {effect : State → State} (checks : ∀ s, checkOf i s = none)
    (completes : ∀ s, effectOf i s = .next (effect s)) : AlwaysAccepted i effect := by
  obtain ⟨-, accepted, completed⟩ := acceptedIf_of_check_effect (check := fun _ => none)
    (fun s => Option.map_eq_none_iff.mpr (checks s)) completes
  exact ⟨fun s idle => accepted s idle rfl, completed⟩

/-- The encoding of the commands of one opcode that carries an index: the IDX field selects the command, and the checks of
R197 are those of RSV and of the index (R73, R75). -/
theorem indexedWordRule_of_fields {command : BitVec 4 → Instr} {opc : Byte} {max : Nat}
    (selected : ∀ k, commandOf opc k = some (command k)) (idx : ∀ k, (command k).idx = k)
    (wf : ∀ k, (command k).wf = decide (k.toNat ≤ max)) : IndexedWordRule command opc max := by
  have word : ∀ k : BitVec 4, opc.setWidth 32 ||| (k.setWidth 32 <<< 8) = encode (command k) := fun k => by
    rw [encode, idx, opc_of_commandOf (selected k)]
  have selectedBy : ∀ {w : Word}, opcField w = opc → commandOf (opcField w) (idxField w) = some (command (idxField w)) :=
    fun ofOpc => ofOpc ▸ selected _
  refine ⟨fun k inRange => ?decodes, fun w ofOpc rsv => ?reserved, fun w ofOpc rsv above => ?outOfRange,
    fun k => busyRejects _⟩
  case decodes => rw [word, decodeCommand_encode ((wf k).trans (decide_eq_true inRange))]
  case reserved => exact decodeCommand_reservedField (selectedBy ofOpc) (.inl rsv)
  case outOfRange =>
    exact decodeCommand_indexRange (selectedBy ofOpc) rsv (idx _) ((wf _).trans (decide_eq_false (Nat.not_le.mpr above)))

/-- A command word that the decoder rejects records its error (R197). -/
theorem presentCommand_of_rejected {w : Word} {e : ErrName} (rejected : decodeCommand w = .error e) (s : State) :
    presentCommand w s = .next (raiseError e s) := by
  simp [presentCommand, rejected]

/-- A CMD write of a word that the decoder rejects gets OKAY from an idle core, and only the error is recorded (R199). -/
theorem hostAccess_write_cmd_rejected {w : Word} {e : ErrName} {s : State} (idle : s.busy = false)
    (rejected : decodeCommand w = .error e) :
    hostAccess (.write (RegName.offset .cmd) 4 w) s = .next (respond .okay none (raiseError e s)) := by
  rw [hostAccess_write_cmd_idle w idle, presentCommand_of_rejected rejected, raiseError_respond]

end Sys2Proof.Machine
end

section
/-! The SBox unit (41_sbox_word.md R110-R113): the two tables are inverse to each other, and SBox follows the construction
of R113. That is checked at one inverse of each Byte, and a Byte has no other. -/

namespace Sys2Proof.Machine

/-! ### The tables -/

/-- InvSBox undoes SBox, entry by entry (R112). -/
@[simp] theorem invSbox_sbox : ∀ b : Byte, invSbox (sbox b) = b := by decide

/-- SBox undoes InvSBox, entry by entry (R112). -/
@[simp] theorem sbox_invSbox : ∀ b : Byte, sbox (invSbox b) = b := by decide

/-- SBox has no fixed point (R118). -/
theorem sbox_ne_self : ∀ b : Byte, sbox b ≠ b := by decide

/-- Settles O23: each table undoes the other. -/
theorem substitutionTablesAreInverse : Obligations.SubstitutionTablesAreInverse :=
  ⟨fun b => ⟨invSbox_sbox b, sbox_invSbox b⟩,
    Function.bijective_iff_has_inverse.mpr ⟨invSbox, invSbox_sbox, sbox_invSbox⟩⟩

/-! ### Multiplicative inverses -/

@[simp] theorem xtimes_zero : xtimes 0#8 = 0#8 := rfl

/-- multiply commutes with xtimes: on the powers of x, and both sides are additive in both arguments. -/
theorem multiply_xtimes (a b : Byte) : multiply a (xtimes b) = xtimes (multiply a b) := by
  have powers : ∀ i j : Fin 8, multiply (BitVec.twoPow 8 i) (xtimes (BitVec.twoPow 8 j)) =
      xtimes (multiply (BitVec.twoPow 8 i) (BitVec.twoPow 8 j)) := by decide
  induction a using xorInduction with
  | zero => simp
  | xor a a' ha ha' => rw [xor_multiply, xor_multiply, xtimes_xor, ha, ha']
  | bit i hi =>
    induction b using xorInduction with
    | zero => simp
    | xor b b' hb hb' => rw [xtimes_xor, multiply_xor, multiply_xor, xtimes_xor, hb, hb']
    | bit j hj => exact powers ⟨i, hi⟩ ⟨j, hj⟩

/-- The powers of x are reached from 1 by xtimes. -/
theorem twoPow_succ_eq_xtimes {i : Nat} (hi : i + 1 < 8) : BitVec.twoPow 8 (i + 1) = xtimes (BitVec.twoPow 8 i) := by
  have powers : ∀ i : Fin 7, BitVec.twoPow 8 (i + 1) = xtimes (BitVec.twoPow 8 i) := by decide
  exact powers ⟨i, by omega⟩

/-- multiply is associative: in the powers of x by induction on the power, and both sides are additive. -/
theorem multiply_assoc (a b c : Byte) : multiply (multiply a b) c = multiply a (multiply b c) := by
  induction c using xorInduction with
  | zero => simp
  | xor c c' hc hc' => simp only [multiply_xor, hc, hc']
  | bit i hi =>
    induction i with
    | zero => simp only [BitVec.twoPow_zero, multiply_one]
    | succ i ih => simp only [twoPow_succ_eq_xtimes hi, multiply_xtimes, ih (by omega)]

/-- A Byte has at most one multiplicative inverse. -/
theorem eq_of_multiply_eq_one {a a' t : Byte} (h : multiply a t = 1#8) (h' : multiply a' t = 1#8) : a = a' :=
  calc a
      = multiply a (multiply a' t) := by rw [h', multiply_one]
    _ = multiply a' (multiply a t) := by rw [multiply_comm a' t, ← multiply_assoc, h, multiply_comm a' 1#8]
    _ = a' := by rw [h, multiply_one]

/-! ### The construction of R113 -/

/-- The affine transform of R113: `t` plus its four rotations, plus 0x63. -/
def affine (t : Byte) : Byte :=
  t ^^^ t.rotateLeft 4 ^^^ t.rotateLeft 3 ^^^ t.rotateLeft 2 ^^^ t.rotateLeft 1 ^^^ 0x63

/-- The transform bit by bit, as R113 writes it. -/
theorem affine_getLsbD (t : Byte) (i : Fin 8) : (affine t).getLsbD i.val =
    (t.getLsbD i.val ^^ t.getLsbD ((i.val + 4) % 8) ^^ t.getLsbD ((i.val + 5) % 8) ^^ t.getLsbD ((i.val + 6) % 8) ^^
      t.getLsbD ((i.val + 7) % 8) ^^ (0x63 : Byte).getLsbD i.val) := by
  simp only [affine, BitVec.getLsbD_xor]
  fin_cases i <;> simp

/-- The Byte that SBox takes to the transform of `t` is the inverse of `t`, entry by entry. -/
theorem multiply_invSbox_affine : ∀ t : Byte, t = 0#8 ∨ multiply (invSbox (affine t)) t = 1#8 := by decide

/-- SBox is the transform of the multiplicative inverse. -/
theorem sbox_eq_affine {a t : Byte} (inverse : multiply a t = 1#8) : sbox a = affine t := by
  obtain rfl | entry := multiply_invSbox_affine t
  · simp at inverse
  · rw [eq_of_multiply_eq_one inverse entry, sbox_invSbox]

/-- Settles O24: SBox is the affine transform of the inverse, and that of 0 at 0. -/
theorem sboxFollowsConstruction : Obligations.SboxFollowsConstruction := by
  unfold Obligations.SboxFollowsConstruction
  intro a t inverse i
  have entry : sbox a = affine t := by
    obtain inverse | ⟨rfl, rfl⟩ := inverse
    · exact sbox_eq_affine inverse
    · decide
  rw [entry, affine_getLsbD]

/-! ### The commands -/

/-- Settles O4: the rule template, and the table. -/
theorem sboxWritesSubstitute : Obligations.SboxWritesSubstitute :=
  ⟨wordRule_encode (i := .sbox) rfl fun _ => rfl, acceptedIf_of_check_effect checkByteA_code fun _ => rfl,
    sbox_ne_self, by decide⟩

/-- Settles O5: the rule template, and the table. -/
theorem isboxWritesInverseSubstitute : Obligations.IsboxWritesInverseSubstitute :=
  ⟨wordRule_encode (i := .isbox) rfl fun _ => rfl, acceptedIf_of_check_effect checkByteA_code fun _ => rfl, by decide⟩

end Sys2Proof.Machine
end

section
/-! The word unit (41_sbox_word.md R115-R117, R120-R122): RotWord, SubWord and the round constants. -/

namespace Sys2Proof.Machine

open Sys2Proof.Claims

/-- RotWord moves every byte one place to the left, and the first to the end (R115). -/
theorem byteLane_rotWord (w : Word) (j : Fin 4) : byteLane (rotWord w) j = byteLane w (j + 1) := by
  refine BitVec.eq_of_getLsbD_eq fun i hi => ?_
  fin_cases j <;> interval_cases i <;> simp [byteLane, rotWord]

/-- RotWord by its two fields, as R115 writes it. -/
theorem rotWord_eq_fields (w : Word) :
    rotWord w = (w.extractLsb' 0 24).setWidth 32 <<< 8 ||| (w.extractLsb' 24 8).setWidth 32 := by
  refine BitVec.eq_of_getLsbD_eq fun i hi => ?_
  interval_cases i <;> simp [rotWord]

/-- Four rotations restore the word. -/
theorem rotWord_rotWord_rotWord_rotWord (w : Word) : rotWord (rotWord (rotWord (rotWord w))) = w := by
  refine eq_of_byteLane fun j => ?_
  have fullTurn : j + 1 + 1 + 1 + 1 = j := by revert j; decide
  simp only [byteLane_rotWord, fullTurn]

/-- Settles O6: the rule template, and RotWord by its fields. -/
theorem rotwRotatesWord : Obligations.RotwRotatesWord := by
  refine ⟨wordRule_encode (i := .rotw) rfl fun _ => rfl, alwaysAccepted_of_effect (fun _ => rfl) fun s => ?_,
    fun w => ⟨rotWord_eq_fields w, rotWord_rotWord_rotWord_rotWord w⟩, by decide⟩
  rw [effectOf, rotWord_eq_fields, writeRes]

/-- Settles O7: the rule template; SubWord is packed from the substitutes. -/
theorem subwSubstitutesWord : Obligations.SubwSubstitutesWord :=
  ⟨wordRule_encode (i := .subw) rfl fun _ => rfl, alwaysAccepted_of_effect (fun _ => rfl) fun _ => rfl, by decide⟩

section
variable {k : BitVec 4} (inTable : k.toNat < 10) (s : State)
include inTable

/-- An index in 0..9 passes the check of RCON at accept (R75). -/
theorem checkOf_rcon : checkOf (.rcon k) s = none :=
  if_neg (Nat.not_lt.mpr (Nat.le_of_lt_succ inTable))

/-- The effect of RCON for an index in 0..9: RES gets the table's entry (R122). -/
theorem effectOf_rcon : effectOf (.rcon k) s = writeRes (zext32 rconTable[k.toNat]) s := by
  simp only [effectOf, Vector.getElem?_eq_getElem inTable]

end

/-- The words of RCON (R75). -/
theorem indexedWordRule_rcon : IndexedWordRule .rcon 0x24 9 :=
  indexedWordRule_of_fields (fun _ => rfl) (fun _ => rfl) fun _ => rfl

/-- Settles O8: the rule template; RES gets the table's entry, since an index below 10 is kept by IDX's 4 bits. -/
theorem rconReadsRoundConstant : Obligations.RconReadsRoundConstant := by
  refine ⟨indexedWordRule_rcon, fun i => ?life, fun s w idle opc rsv above => ?rejected, rfl, by decide⟩
  case life =>
    have index : (BitVec.ofNat 4 i.val).toNat = i.val := Nat.mod_eq_of_lt (by omega)
    have inTable : (BitVec.ofNat 4 i.val).toNat < 10 := index.trans_lt i.isLt
    refine alwaysAccepted_of_effect (checkOf_rcon inTable) fun s => ?_
    simp only [effectOf_rcon inTable, index]
    rfl
  case rejected =>
    obtain ⟨-, -, outOfRange, -⟩ := indexedWordRule_rcon
    exact hostAccess_write_cmd_rejected idle (outOfRange w opc rsv above)

end Sys2Proof.Machine
end

section
/-! The Block and its matrix (42_round_ops.md R130, R131): each function by its entries. -/

namespace Sys2Proof.Machine

/-- Entry `[r][c]` of the matrix is byte `r + 4c` of the Block (R130). -/
@[simp] theorem fromBlock_at (b : Block) (r c : Fin 4) : (fromBlock b).at r c = b[r.val + 4 * c.val] :=
  Mat.at_build ..

/-- Byte `r + 4c` of the Block is entry `[r][c]` of the matrix (R131). -/
@[simp] theorem toBlock_getElem (m : Mat) (r c : Fin 4) : (toBlock m)[r.val + 4 * c.val] = m.at r c := by
  have row : (r.val + 4 * c.val) % 4 = r.val := by omega
  have column : (r.val + 4 * c.val) / 4 = c.val := by omega
  simp [toBlock, row, column]

/-- toBlock undoes fromBlock (R131): every byte number is `r + 4c` for some `r` and `c`. -/
@[simp] theorem toBlock_fromBlock (b : Block) : toBlock (fromBlock b) = b := by
  refine Vector.ext fun i hi => ?_
  obtain ⟨r, c, rfl⟩ : ∃ r c : Fin 4, i = r.val + 4 * c.val :=
    ⟨⟨i % 4, by omega⟩, ⟨i / 4, by omega⟩, (Nat.mod_add_div i 4).symm⟩
  rw [toBlock_getElem, fromBlock_at]

/-- fromBlock undoes toBlock (R131). -/
@[simp] theorem fromBlock_toBlock (m : Mat) : fromBlock (toBlock m) = m :=
  Mat.eq_of_at fun r c => by rw [fromBlock_at, toBlock_getElem]

/-- Settles O26: the two functions by their entries. -/
theorem blockAndMatrixAreInverse : Obligations.BlockAndMatrixAreInverse :=
  ⟨toBlock_fromBlock, fromBlock_toBlock, fromBlock_at, toBlock_getElem⟩

end Sys2Proof.Machine
end

section
/-! The round functions that move or replace single entries (42_round_ops.md R132-R135, R139), each by its entries, and
their inverses (R140). -/

namespace Sys2Proof.Machine

section
variable (m k : Mat) (r c : Fin 4)

@[simp] theorem subBytes_at : (subBytes m).at r c = sbox (m.at r c) := Mat.at_build ..

@[simp] theorem invSubBytes_at : (invSubBytes m).at r c = invSbox (m.at r c) := Mat.at_build ..

@[simp] theorem shiftRows_at : (shiftRows m).at r c = m.at r (c + r) := Mat.at_build ..

@[simp] theorem invShiftRows_at : (invShiftRows m).at r c = m.at r (c - r) := Mat.at_build ..

@[simp] theorem addRoundKey_at : (addRoundKey m k).at r c = m.at r c ^^^ k.at r c := Mat.at_build ..

end

@[simp] theorem invSubBytes_subBytes (m : Mat) : invSubBytes (subBytes m) = m :=
  Mat.eq_of_at fun r c => by simp

/-- Adding a round key twice restores the matrix (R139). -/
@[simp] theorem addRoundKey_addRoundKey (m k : Mat) : addRoundKey (addRoundKey m k) k = m :=
  Mat.eq_of_at fun r c => by simp

@[simp] theorem addRoundKey_zero (m : Mat) : addRoundKey m Mat.zero = m :=
  Mat.eq_of_at fun r c => by simp

/-! ### The row shifts -/

/-- Row `r` moves `r` positions left and then `r` back (R140). -/
@[simp] theorem invShiftRows_shiftRows (m : Mat) : invShiftRows (shiftRows m) = m :=
  Mat.eq_of_at fun r c => by rw [invShiftRows_at, shiftRows_at, sub_add_cancel]

/-- A matrix with constant rows is unchanged by ShiftRows (R146). -/
theorem shiftRows_of_constant_rows {m : Mat} (constant : ∀ r c, m.at r c = m.at r 0) : shiftRows m = m :=
  Mat.eq_of_at fun r c => by rw [shiftRows_at, constant r (c + r), constant r c]

/-- Row 0 never moves (R134, R146). -/
theorem shiftRows_row_zero (m : Mat) : (shiftRows m)[0] = m[0] :=
  Vector.ext fun c hc => (shiftRows_at m 0 ⟨c, hc⟩).trans (congrArg (m.at 0) (add_zero _))

/-- Settles O27: the rows entry by entry; the column numbers are modulo 4. -/
theorem rowShiftsMoveRows : Obligations.RowShiftsMoveRows := by
  unfold Obligations.RowShiftsMoveRows
  refine fun r0 r1 r2 r3 => ⟨Mat.eq_of_at fun r c => ?left, Mat.eq_of_at fun r c => ?right,
    fun m r c => ⟨shiftRows_at m r c, ?index⟩⟩
  case left => rw [shiftRows_at]; fin_cases r <;> fin_cases c <;> rfl
  case right => rw [invShiftRows_at]; fin_cases r <;> fin_cases c <;> rfl
  case index =>
    have column : c - r = Fin.ofNat 4 (c.val + 4 - r.val) := by
      refine Fin.ext ?_
      simp only [Fin.sub_def, Fin.ofNat]
      omega
    rw [invShiftRows_at, column]

end Sys2Proof.Machine
end

section
/-! MixColumns and InvMixColumns (42_round_ops.md R136-R138, R140): products of matrices over the field. One undoes the
other because the product of their coefficient matrices is the identity. -/

namespace Sys2Proof.Machine

open Sys2Proof.Claims

/-! ### Products of matrices -/

/-- An entry of the product of two matrices (R137). -/
theorem mulColumns_at (coef m : Mat) (r c : Fin 4) : (mulColumns coef m).at r c = columnSum coef m r c :=
  Mat.at_build ..

/-- The product of matrices is associative: both sides are the same sum of sixteen products. -/
theorem mulColumns_mulColumns (a b m : Mat) : mulColumns a (mulColumns b m) = mulColumns (mulColumns a b) m := by
  refine Mat.eq_of_at fun r c => ?_
  simp only [mulColumns_at, columnSum, multiply_xor, xor_multiply, multiply_assoc]
  ac_rfl

/-- The identity matrix. -/
def identityMat : Mat :=
  #v[#v[0x01, 0x00, 0x00, 0x00], #v[0x00, 0x01, 0x00, 0x00], #v[0x00, 0x00, 0x01, 0x00], #v[0x00, 0x00, 0x00, 0x01]]

@[simp] theorem mulColumns_identityMat (m : Mat) : mulColumns identityMat m = m := by
  refine Mat.eq_of_at fun r c => ?_
  rw [mulColumns_at]
  fin_cases r <;> simp [columnSum, identityMat, Mat.at]

/-- A column of equal bytes is unchanged by a matrix whose rows each sum to 1 (R148, R149). -/
theorem mulColumns_at_of_constant_column {coef m : Mat} {c : Fin 4}
    (rowSum : ∀ r, coef.at r 0 ^^^ coef.at r 1 ^^^ coef.at r 2 ^^^ coef.at r 3 = 1#8)
    (constant : ∀ r, m.at r c = m.at 0 c) (r : Fin 4) : (mulColumns coef m).at r c = m.at r c := by
  rw [mulColumns_at, columnSum, constant 1, constant 2, constant 3, constant r]
  simp only [← xor_multiply, rowSum, one_multiply]

/-! ### The two coefficient matrices -/

/-- The inverse coefficients undo the forward ones (R138). -/
theorem mulColumns_invMixCoeffs_mixCoeffs :
    mulColumns (rotatedRight invMixCoeffs) (rotatedRight mixCoeffs) = identityMat := by decide

/-- The forward coefficients undo the inverse ones. -/
theorem mulColumns_mixCoeffs_invMixCoeffs :
    mulColumns (rotatedRight mixCoeffs) (rotatedRight invMixCoeffs) = identityMat := by decide

@[simp] theorem invMixColumns_mixColumns (m : Mat) : invMixColumns (mixColumns m) = m := by
  rw [invMixColumns, mixColumns, mulColumns_mulColumns, mulColumns_invMixCoeffs_mixCoeffs, mulColumns_identityMat]

@[simp] theorem mixColumns_invMixColumns (m : Mat) : mixColumns (invMixColumns m) = m := by
  rw [invMixColumns, mixColumns, mulColumns_mulColumns, mulColumns_mixCoeffs_invMixCoeffs, mulColumns_identityMat]

/-- An entry of MixColumns, by the forward matrix of R136 written out. -/
theorem mixColumns_at (m : Mat) (r c : Fin 4) : (mixColumns m).at r c = columnSum
    #v[#v[0x02, 0x03, 0x01, 0x01], #v[0x01, 0x02, 0x03, 0x01], #v[0x01, 0x01, 0x02, 0x03], #v[0x03, 0x01, 0x01, 0x02]]
    m r c :=
  mulColumns_at ..

/-- An entry of InvMixColumns, by the inverse matrix of R136 written out. -/
theorem invMixColumns_at (m : Mat) (r c : Fin 4) : (invMixColumns m).at r c = columnSum
    #v[#v[0x0E, 0x0B, 0x0D, 0x09], #v[0x09, 0x0E, 0x0B, 0x0D], #v[0x0D, 0x09, 0x0E, 0x0B], #v[0x0B, 0x0D, 0x09, 0x0E]]
    m r c :=
  mulColumns_at ..

@[simp] theorem two_multiply (a : Byte) : multiply 2#8 a = xtimes a := by
  rw [multiply_comm, multiply_two]

/-- 0x03 is x + 1. -/
@[simp] theorem three_multiply (a : Byte) : multiply 3#8 a = xtimes a ^^^ a :=
  calc multiply 3#8 a
      = multiply 2#8 a ^^^ multiply 1#8 a := xor_multiply 2#8 1#8 a
    _ = xtimes a ^^^ a := by rw [two_multiply, one_multiply]

/-- Settles O28: both functions are products with the matrices written out, whose entries are 0x01, 0x02 and 0x03 in the
forward case. -/
theorem mixColumnsMultipliesColumns : Obligations.MixColumnsMultipliesColumns := by
  unfold Obligations.MixColumnsMultipliesColumns
  refine ⟨fun m => ⟨invMixColumns_mixColumns m, mixColumns_invMixColumns m⟩,
    fun m r c => ⟨mixColumns_at m r c, invMixColumns_at m r c⟩, fun m c => ?_⟩
  simp only [mixColumns_at, columnSum]
  simp [Mat.at]

/-- Settles O29: the inverse of each round function. -/
theorem roundFunctionsHaveInverses : Obligations.RoundFunctionsHaveInverses := fun m k =>
  ⟨invShiftRows_shiftRows m, invSubBytes_subBytes m, invMixColumns_mixColumns m, addRoundKey_addRoundKey m k⟩

end Sys2Proof.Machine
end

section
/-! The commands of the round pipeline (42_round_ops.md R142-R150). -/

namespace Sys2Proof.Machine

open Sys2Proof.Claims

/-- Settles O9: the rule template, and both matrices of R142. -/
theorem ldstLoadsState : Obligations.LdstLoadsState :=
  ⟨wordRule_encode (i := .ldst) rfl fun _ => rfl, alwaysAccepted_of_effect (fun _ => rfl) fun _ => rfl, by decide⟩

/-- Settles O10: the rule template; the views of R39 and R131 undo each other. -/
theorem ststStoresState : Obligations.StstStoresState :=
  ⟨wordRule_encode (i := .stst) rfl fun _ => rfl, alwaysAccepted_of_effect (fun _ => rfl) fun _ => rfl,
    fun q => by rw [toBlock_fromBlock, wordsOf_bytesOf]⟩

/-- Settles O11: the rule template, and SubBytes by its entries. -/
theorem subbSubstitutesBytes : Obligations.SubbSubstitutesBytes :=
  ⟨wordRule_encode (i := .subb) rfl fun _ => rfl, alwaysAccepted_of_effect (fun _ => rfl) fun _ => rfl, subBytes_at,
    by decide⟩

/-- Settles O12: the rule template, and InvSubBytes by its entries. -/
theorem isubbSubstitutesBytesBack : Obligations.IsubbSubstitutesBytesBack :=
  ⟨wordRule_encode (i := .isubb) rfl fun _ => rfl, alwaysAccepted_of_effect (fun _ => rfl) fun _ => rfl,
    invSubBytes_at, invSubBytes_subBytes, by decide⟩

/-- Settles O13: the rule template, and the corner cases of R146. -/
theorem shrShiftsRowsLeft : Obligations.ShrShiftsRowsLeft :=
  ⟨wordRule_encode (i := .shr) rfl fun _ => rfl, alwaysAccepted_of_effect (fun _ => rfl) fun _ => rfl,
    fun _ => shiftRows_of_constant_rows, shiftRows_row_zero, by decide⟩

/-- Settles O14: the rule template, and InvShiftRows as the inverse. -/
theorem ishrShiftsRowsRight : Obligations.IshrShiftsRowsRight :=
  ⟨wordRule_encode (i := .ishr) rfl fun _ => rfl, alwaysAccepted_of_effect (fun _ => rfl) fun _ => rfl,
    invShiftRows_shiftRows, by decide⟩

/-- Settles O15: the rule template; the forward coefficients of each row sum to 1. -/
theorem mixcMixesColumns : Obligations.MixcMixesColumns :=
  ⟨wordRule_encode (i := .mixc) rfl fun _ => rfl, alwaysAccepted_of_effect (fun _ => rfl) fun _ => rfl,
    fun _ _ => mulColumns_at_of_constant_column (by decide), by decide⟩

/-- Settles O16: the rule template; the inverse coefficients of each row sum to 1, and undo the forward ones. -/
theorem imixcMixesColumnsBack : Obligations.ImixcMixesColumnsBack :=
  ⟨wordRule_encode (i := .imixc) rfl fun _ => rfl, alwaysAccepted_of_effect (fun _ => rfl) fun _ => rfl,
    fun _ _ => mulColumns_at_of_constant_column (by decide), invMixColumns_mixColumns, by decide⟩

/-! ### ARK -/

/-- The words of ARK (R75). -/
theorem indexedWordRule_ark : IndexedWordRule .ark 0x38 10 :=
  indexedWordRule_of_fields (fun _ => rfl) (fun _ => rfl) fun _ => rfl

/-- Check 5 has the code of KEY_NOT_VALID (R33, R191). -/
theorem checkKeyValid_code (s : State) : (checkKeyValid s).map ErrName.code = keyCheck s := by
  unfold checkKeyValid keyCheck
  split <;> rfl

section
variable {k : BitVec 4} (stored : k.toNat < 11) (s : State)
include stored

/-- An index in 0..10 leaves ARK the check of the key (R75, R150). -/
theorem checkOf_ark : checkOf (.ark k) s = checkKeyValid s := by
  have inRange : checkIndex 10 k = none := if_neg (Nat.not_lt.mpr (Nat.le_of_lt_succ stored))
  rw [checkOf, inRange, Option.none_or]

/-- The effect of ARK for an index in 0..10: the stored round key is added to STATE (R150). -/
theorem effectOf_ark : effectOf (.ark k) s = writeState (addRoundKey s.stateReg s.rk[k.toNat]) s := by
  simp only [effectOf, Vector.getElem?_eq_getElem stored]

end

/-- An entry of a round key: word `c` of the schedule's words is column `c` (R162). -/
theorem keyExpansion_at (key : Block) (k : Fin 11) (r c : Fin 4) :
    (keyExpansion key)[k].at r c = byteLane (roundKeyWords key k.val (by omega))[c] r := by
  simp [keyExpansion]

/-- Round key 0 is the key itself (R160, R162). -/
theorem keyExpansion_zero (key : Block) : (keyExpansion key)[0] = fromBlock key := by
  refine Mat.eq_of_at fun r c => ?_
  calc (keyExpansion key)[0].at r c
      = byteLane (wordsOf key)[c] r := keyExpansion_at key 0 r c
    _ = key[4 * c.val + r.val] := byteLane_wordsOf key c r
    _ = (fromBlock key).at r c := by simp only [fromBlock_at, Nat.add_comm]

/-- Settles O17: the rule template, AddRoundKey by its entries, and round key 0 as the key. -/
theorem arkAddsRoundKey : Obligations.ArkAddsRoundKey := by
  refine ⟨indexedWordRule_ark, fun k => ?life, fun s w idle opc rsv above => ?rejected,
    fun m k => ⟨addRoundKey_at m k, addRoundKey_addRoundKey m k, addRoundKey_zero m⟩, keyExpansion_zero, ?vector⟩
  case life =>
    have index : (BitVec.ofNat 4 k.val).toNat = k.val := Nat.mod_eq_of_lt (by omega)
    have stored : (BitVec.ofNat 4 k.val).toNat < 11 := index.trans_lt k.isLt
    refine acceptedIf_of_check_effect (fun s => ?_) fun s => ?_
    · rw [checkOf_ark stored, checkKeyValid_code]
    · simp only [effectOf_ark stored, index]
      rfl
  case rejected =>
    obtain ⟨-, -, outOfRange, -⟩ := indexedWordRule_ark
    exact hostAccess_write_cmd_rejected idle (outOfRange w opc rsv above)
  case vector =>
    rw [keyExpansion_zero]
    decide

end Sys2Proof.Machine
end

section
/-! The key schedule (43_key_schedule.md R160-R164): its words, read through the views of R32, group by group. -/

namespace Sys2Proof.Machine

open Sys2Proof.Claims

/-- View `4k + c` of the schedule (R32) is word `c` of round key `k`, the words being the columns (R162). -/
theorem rkWord_keyExpansion (key : Block) {k : Nat} (hk : k ≤ 10) (c : Fin 4) {i : Fin 44}
    (position : i.val = 4 * k + c.val) : rkWord (keyExpansion key) i = (roundKeyWords key k hk)[c] := by
  have group : i.val / 4 = k := by omega
  have column : Fin.ofNat 4 (i.val % 4) = c := Fin.ext (by simp only [Fin.ofNat]; omega)
  have lane (r : Fin 4) : (keyExpansion key)[k].at r c = byteLane (roundKeyWords key k hk)[c] r :=
    keyExpansion_at key ⟨k, by omega⟩ r c
  simp only [rkWord, group, column, lane, packWord_byteLane]

/-! ### One turn of the recurrence -/

/-- The round constant goes to the first byte, bits 31:24, and to no other (R161). -/
theorem packWord_first_eq_rconWord (rcon : Byte) : packWord rcon 0 0 0 = rconWord rcon := by
  simp [packWord, rconWord]

section
variable (rcon : Byte) (w : Quad)

/-- The first word of a group, from the first and the last of the group before (R161). -/
theorem nextGroup_getElem_zero :
    (nextGroup rcon w)[(0 : Fin 4)] = w[(0 : Fin 4)] ^^^ (subWord (rotWord w[(3 : Fin 4)]) ^^^ rconWord rcon) := by
  rw [← packWord_first_eq_rconWord]
  rfl

/-- Each further word of a group: the word before it and the word four back (R161). -/
theorem nextGroup_getElem_succ (j : Fin 3) :
    (nextGroup rcon w)[j.succ] = (nextGroup rcon w)[j.castSucc] ^^^ w[j.succ] := by
  fin_cases j <;> rfl

end

/-- The words of a later round key are one turn of the recurrence on those of the round key before (R161). -/
theorem roundKeyWords_succ (key : Block) (i : Fin 10) :
    roundKeyWords key (i.val + 1) (by omega) = nextGroup rconTable[i] (roundKeyWords key i.val (by omega)) := rfl

/-- Settles O30: each view is a word of its round key, whose group is the key's words or one turn of the recurrence. -/
theorem keyScheduleFollowsRecurrence : Obligations.KeyScheduleFollowsRecurrence := by
  unfold Obligations.KeyScheduleFollowsRecurrence
  intro key w
  have word {k : Nat} (hk : k ≤ 10) (c : Fin 4) {i : Fin 44} (position : i.val = 4 * k + c.val) :
      w i = (roundKeyWords key k hk)[c] := rkWord_keyExpansion key hk c position
  refine ⟨fun j => word (k := 0) (by omega) j (by simp), fun i => ?_⟩
  have before : i.val ≤ 10 := by omega
  have after : i.val + 1 ≤ 10 := by omega
  refine ⟨?firstWord, fun j => ?nextWord⟩
  case firstWord =>
    rw [word after 0 rfl, word before 0 rfl, word before 3 rfl, roundKeyWords_succ, nextGroup_getElem_zero]
  case nextWord =>
    rw [word after j.succ rfl, word after j.castSucc rfl, word before j.succ rfl, roundKeyWords_succ,
      nextGroup_getElem_succ]

/-- Round key 0 as a Block is the key (R163). -/
theorem toBlock_keyExpansion_zero (key : Block) : toBlock (keyExpansion key)[0] = key := by
  rw [keyExpansion_zero, toBlock_fromBlock]

/-- Settles O31: a schedule gives its key back as round key 0. -/
theorem distinctKeysGiveDistinctSchedules : Obligations.DistinctKeysGiveDistinctSchedules := by
  refine fun k k' => ⟨toBlock_keyExpansion_zero k, fun sameSchedule => ?_⟩
  calc k = toBlock (keyExpansion k)[0] := (toBlock_keyExpansion_zero k).symm
    _ = toBlock (keyExpansion k')[0] := by rw [sameSchedule]
    _ = k' := toBlock_keyExpansion_zero k'

/-- Settles O18: the rule template, and the vectors of R164 by evaluation. -/
theorem keyexpExpandsKey : Obligations.KeyexpExpandsKey :=
  ⟨wordRule_encode (i := .keyexp) rfl fun _ => rfl, alwaysAccepted_of_effect (fun _ => rfl) fun _ => rfl, by decide⟩

end Sys2Proof.Machine
end

section
/-! Cipher and InvCipher (44_cipher.md R170-R172). The rounds of the two do not line up: a round of InvCipher ends
inside a round of Cipher. It undoes one when both are seen from behind SubBytes and ShiftRows, which open a round. -/

namespace Sys2Proof.Machine

/-! ### Two loops, one undoing the other -/

/-- A loop `g` that runs through the same list backwards undoes a loop `f`, seen from behind `view`, when each turn of
`g` undoes the turn of `f` on the same item. -/
theorem foldl_reverse_foldl_of_undoes {α β : Type} {f g : α → β → α} {view : α → α}
    (undoes : ∀ a x, g (view (f a x)) x = view a) (a : α) (l : List β) :
    l.reverse.foldl g (view (l.foldl f a)) = view a := by
  induction l generalizing a with
  | nil => rfl
  | cons x xs ih =>
    rw [List.foldl_cons, List.reverse_cons, List.foldl_append, ih, List.foldl_cons, List.foldl_nil, undoes]

/-! ### The opening of a round -/

@[simp] theorem subBytes_invSubBytes (m : Mat) : subBytes (invSubBytes m) = m :=
  Mat.eq_of_at fun r c => by simp

/-- Row `r` moves `r` positions right and then `r` back. -/
@[simp] theorem shiftRows_invShiftRows (m : Mat) : shiftRows (invShiftRows m) = m :=
  Mat.eq_of_at fun r c => by rw [shiftRows_at, invShiftRows_at, add_sub_cancel_right]

/-- SubBytes and ShiftRows, the opening of each of Cipher's ten rounds (R170). -/
def opening (m : Mat) : Mat := shiftRows (subBytes m)

/-- InvShiftRows and InvSubBytes, the opening of each of InvCipher's ten rounds (R171). -/
def invOpening (m : Mat) : Mat := invSubBytes (invShiftRows m)

@[simp] theorem invOpening_opening (m : Mat) : invOpening (opening m) = m := by
  simp [opening, invOpening]

@[simp] theorem opening_invOpening (m : Mat) : opening (invOpening m) = m := by
  simp [opening, invOpening]

/-! ### The rounds -/

section
variable (rk : RoundKeys) (m : Mat) (r : Fin 11)

theorem fullRound_eq_opening : fullRound rk m r = addRoundKey (mixColumns (opening m)) rk[r] := rfl

theorem invFullRound_eq_invOpening :
    invFullRound rk m r = invMixColumns (addRoundKey (invOpening m) rk[r]) := rfl

/-- A round of InvCipher undoes the round of Cipher with the same key, each seen from behind an opening. -/
theorem invFullRound_opening_fullRound : invFullRound rk (opening (fullRound rk m r)) r = opening m := by
  rw [invFullRound_eq_invOpening, invOpening_opening, fullRound_eq_opening, addRoundKey_addRoundKey,
    invMixColumns_mixColumns]

/-- A round of Cipher undoes the round of InvCipher with the same key, each seen from behind an opening. -/
theorem fullRound_invOpening_invFullRound : fullRound rk (invOpening (invFullRound rk m r)) r = invOpening m := by
  rw [fullRound_eq_opening, opening_invOpening, invFullRound_eq_invOpening, mixColumns_invMixColumns,
    addRoundKey_addRoundKey]

end

/-! ### The whole cipher -/

/-- The full rounds of Cipher, in their order (R170). -/
def fullRounds : List (Fin 11) := [1, 2, 3, 4, 5, 6, 7, 8, 9]

theorem cipher_eq_opening (b : Block) (rk : RoundKeys) : cipher b rk =
    toBlock (addRoundKey (opening (fullRounds.foldl (fullRound rk) (addRoundKey (fromBlock b) rk[0]))) rk[10]) := rfl

theorem invCipher_eq_invOpening (b : Block) (rk : RoundKeys) : invCipher b rk =
    toBlock (addRoundKey
      (invOpening (fullRounds.reverse.foldl (invFullRound rk) (addRoundKey (fromBlock b) rk[10]))) rk[0]) := rfl

/-- Decryption undoes encryption, under every schedule (R172). -/
@[simp] theorem invCipher_cipher (b : Block) (rk : RoundKeys) : invCipher (cipher b rk) rk = b := by
  rw [invCipher_eq_invOpening, cipher_eq_opening, fromBlock_toBlock, addRoundKey_addRoundKey,
    foldl_reverse_foldl_of_undoes (invFullRound_opening_fullRound rk), invOpening_opening, addRoundKey_addRoundKey,
    toBlock_fromBlock]

/-- Encryption undoes decryption, under every schedule. -/
@[simp] theorem cipher_invCipher (b : Block) (rk : RoundKeys) : cipher (invCipher b rk) rk = b := by
  have rounds (m : Mat) : fullRounds.foldl (fullRound rk) (invOpening (fullRounds.reverse.foldl (invFullRound rk) m)) =
      invOpening m :=
    foldl_reverse_foldl_of_undoes (fullRound_invOpening_invFullRound rk) m fullRounds.reverse
  rw [cipher_eq_opening, invCipher_eq_invOpening, fromBlock_toBlock, addRoundKey_addRoundKey, rounds,
    opening_invOpening, addRoundKey_addRoundKey, toBlock_fromBlock]

/-- Settles O32: the rounds of the one undo those of the other, between the key additions of both ends. -/
theorem cipherAndInvCipherAreInverse : Obligations.CipherAndInvCipherAreInverse := fun b rk =>
  ⟨invCipher_cipher b rk, cipher_invCipher b rk⟩

end Sys2Proof.Machine
end

section
/-! The commands of the cipher controller (44_cipher.md R174, R175). -/

namespace Sys2Proof.Machine

open Sys2Proof.Claims

/-- The known-answer test of R174. -/
theorem cipher_knownAnswer :
    cipher (hexBlock 0x3243f6a8885a308d313198a2e0370734) (keyExpansion (hexBlock 0x2b7e151628aed2a6abf7158809cf4f3c)) =
      hexBlock 0x3925841d02dc09fbdc118597196a0b32 := by decide +kernel

/-- Settles O19: the rule template, and both vectors of R174. -/
theorem encEncryptsBlock : Obligations.EncEncryptsBlock :=
  ⟨wordRule_encode (i := .enc) rfl fun _ => rfl, acceptedIf_of_check_effect checkKeyValid_code fun _ => rfl,
    by decide +kernel, cipher_knownAnswer⟩

/-- Settles O20: the rule template; the example of R175 is the known-answer test of R174 undone. -/
theorem decDecryptsBlock : Obligations.DecDecryptsBlock :=
  ⟨wordRule_encode (i := .dec) rfl fun _ => rfl, acceptedIf_of_check_effect checkKeyValid_code fun _ => rfl,
    by decide +kernel, by rw [← cipher_knownAnswer, invCipher_cipher]⟩

/-- Settles O33: DIN of the second completion holds the ciphertext, which InvCipher turns back under the same
schedule. -/
theorem decAfterEncRestoresBlock : Obligations.DecAfterEncRestoresBlock := by
  intro s t u v busy pend encrypts handOver decrypts
  subst handOver
  obtain ⟨-, ⟨-, -, encCompletes⟩, -⟩ := encEncryptsBlock
  obtain ⟨-, ⟨-, -, decCompletes⟩, -⟩ := decDecryptsBlock
  cases (encCompletes s busy pend).symm.trans encrypts
  cases (decCompletes _ rfl rfl).symm.trans decrypts
  have block : invCipher (bytesOf (wordsOf (cipher (bytesOf s.din) s.rk))) s.rk = bytesOf s.din := by
    rw [bytesOf_wordsOf, invCipher_cipher]
  exact ⟨(congrArg wordsOf block).trans (wordsOf_bytesOf s.din), congrArg fromBlock block, rfl, rfl⟩

end Sys2Proof.Machine
end

section
/-! The checks of a command word in their order (60_exceptions.md R197): those of the decoder, then those of the command. -/

namespace Sys2Proof.Machine

open Sys2Proof.Claims

/-- The error with which an idle core rejects a command word, if it does (R197): checks 1 to 3 are the decoder's, the others
those of the command. -/
def rejection (w : Word) (s : State) : Option ErrName :=
  match decodeCommand w with
  | .error e => some e
  | .ok i => checkOf i s

theorem rejection_of_decode_error {w : Word} {e : ErrName} (rejected : decodeCommand w = .error e) (s : State) :
    rejection w s = some e := by
  simp [rejection, rejected]

theorem rejection_of_decode_ok {w : Word} {i : Instr} (decodes : decodeCommand w = .ok i) (s : State) :
    rejection w s = checkOf i s := by
  simp [rejection, decodes]

/-- The checks of a command read OPA[31:8], OPB[31:8] and KEY_VALID only (R195). -/
theorem checkOf_congr {s s' : State} (same : errorView s = errorView s') (i : Instr) : checkOf i s = checkOf i s' := by
  obtain ⟨-, keyValid, opaHigh, opbHigh, -, -⟩ := ErrorView.mk.inj same
  cases i with
  | gfadd | gfmul => simp only [checkOf, checkBytesAB, opaHigh, opbHigh]
  | gfxt | sbox | isbox => simp only [checkOf, checkByteA, opaHigh]
  | ark _ | enc | dec => simp only [checkOf, checkKeyValid, keyValid]
  | rotw | subw | rcon _ | ldst | stst | subb | isubb | shr | ishr | mixc | imixc | keyexp => rfl

/-- Whether and how a command word is rejected depends on the error view only (R195). -/
theorem rejection_congr {s s' : State} (same : errorView s = errorView s') (w : Word) :
    rejection w s = rejection w s' := by
  cases decoded : decodeCommand w with
  | error e => rw [rejection_of_decode_error decoded, rejection_of_decode_error decoded]
  | ok i => rw [rejection_of_decode_ok decoded, rejection_of_decode_ok decoded, checkOf_congr same]

section
variable {w : Word} {s : State} (idle : s.busy = false)
include idle

/-- An idle core that rejects a command word answers OKAY and records the error (R199). -/
theorem hostAccess_write_cmd_of_rejection {e : ErrName} (rejects : rejection w s = some e) :
    hostAccess (.write (RegName.offset .cmd) 4 w) s = .next (respond .okay none (raiseError e s)) := by
  cases decoded : decodeCommand w with
  | error e' =>
    obtain rfl : e' = e := Option.some.inj ((rejection_of_decode_error decoded s).symm.trans rejects)
    exact hostAccess_write_cmd_rejected idle decoded
  | ok i =>
    have fails : checkOf i (respond .okay none s) = some e :=
      (checkOf_congr rfl i).trans ((rejection_of_decode_ok decoded s).symm.trans rejects)
    rw [hostAccess_write_cmd_idle w idle, presentCommand_of_decode decoded, exec_eq_command, ← raiseError_respond]
    exact command_idle_reject idle fails

/-- An idle core accepts a command word that passes every check, as the command it decodes to (R210). -/
theorem hostAccess_write_cmd_of_no_rejection (passes : rejection w s = none) :
    ∃ i, decodeCommand w = .ok i ∧
      hostAccess (.write (RegName.offset .cmd) 4 w) s = .next (respond .okay none (accept i s)) := by
  cases decoded : decodeCommand w with
  | error e => simp [rejection_of_decode_error decoded] at passes
  | ok i =>
    have allPass : checkOf i (respond .okay none s) = none :=
      (checkOf_congr rfl i).trans ((rejection_of_decode_ok decoded s).symm.trans passes)
    refine ⟨i, rfl, ?_⟩
    rw [hostAccess_write_cmd_idle w idle, presentCommand_of_decode decoded, exec_eq_command]
    exact command_idle_accept idle allPass

end

/-! ### The list of R197 and the command that the opcode selects -/

/-- Every command's opcode is in the list of R74. -/
theorem opc_mem_assigned (i : Instr) : i.opc ∈ assigned := by
  cases i <;> simp [Instr.opc, assigned]

/-- Check 1: the opcode map selects no command exactly for an opcode outside the list of R74 (R77). -/
theorem commandOf_eq_none_iff {opc : Byte} {idx : BitVec 4} : commandOf opc idx = none ↔ opc ∉ assigned := by
  have selects : ∀ opc ∈ assigned, ∀ idx, commandOf opc idx ≠ none := by decide
  refine ⟨fun unassigned member => selects opc member idx unassigned, fun unassigned => ?_⟩
  refine Option.eq_none_iff_forall_ne_some.mpr fun i selected => unassigned ?_
  exact opc_of_commandOf selected ▸ opc_mem_assigned i

section
variable {opc : Byte} {idx : BitVec 4} {i : Instr} (selected : commandOf opc idx = some i)
include selected

/-- Check 2 on IDX: a command without an index needs 0 there (R76). -/
theorem idx_ne_iff_of_commandOf : i.idx ≠ idx ↔ opc ≠ 0x38 ∧ opc ≠ 0x24 ∧ idx ≠ 0 := by
  obtain rfl := opc_of_commandOf selected
  rw [ne_comm (a := i.idx)]
  cases i with
  | rcon k | ark k => cases selected; simp [Instr.idx, Instr.opc]
  | gfadd | gfxt | gfmul | sbox | isbox | rotw | subw => simp [Instr.idx, Instr.opc]
  | ldst | stst | subb | isubb | shr | ishr | mixc | imixc => simp [Instr.idx, Instr.opc]
  | keyexp | enc | dec => simp [Instr.idx, Instr.opc]

/-- Check 3: the ranges of ARK's and RCON's index (R75). -/
theorem wf_eq_false_iff_of_commandOf : i.wf = false ↔ (opc = 0x38 ∧ 10 < idx.toNat) ∨ (opc = 0x24 ∧ 9 < idx.toNat) := by
  obtain rfl := opc_of_commandOf selected
  cases i with
  | rcon k | ark k => cases selected; simp [Instr.wf, Instr.opc]
  | gfadd | gfxt | gfmul | sbox | isbox | rotw | subw => simp [Instr.wf, Instr.opc]
  | ldst | stst | subb | isubb | shr | ishr | mixc | imixc => simp [Instr.wf, Instr.opc]
  | keyexp | enc | dec => simp [Instr.wf, Instr.opc]

end

/-- Checks 4 and 5 of R197, by the opcode of a word: the code of the first that fails. -/
def operandCode (opc : Byte) (s : State) : Option (BitVec 4) :=
  if opc ∈ [0x11, 0x20, 0x21] ∧ s.opa.extractLsb' 8 24 ≠ 0 then some 4
  else if opc ∈ [0x10, 0x12] ∧ (s.opa.extractLsb' 8 24 ≠ 0 ∨ s.opb.extractLsb' 8 24 ≠ 0) then some 4
  else if opc ∈ [0x50, 0x51, 0x38] ∧ s.keyValid = false then some 5
  else none

/-- Checks 4 and 5 by the opcode are those of its command, if the command is well formed. -/
theorem operandCode_opc {i : Instr} (wf : i.wf = true) (s : State) :
    operandCode i.opc s = (checkOf i s).map ErrName.code := by
  have key : (checkKeyValid s).map ErrName.code = if s.keyValid = false then some 5 else none := by
    cases keyValid : s.keyValid <;> simp [checkKeyValid, keyValid, ErrName.code]
  cases i with
  | gfadd | gfmul =>
    simp only [checkOf, checkBytesAB, apply_ite (Option.map ErrName.code)]
    simp [operandCode, Instr.opc, ErrName.code]
  | gfxt | sbox | isbox =>
    simp only [checkOf, checkByteA, apply_ite (Option.map ErrName.code)]
    simp [operandCode, Instr.opc, ErrName.code]
  | enc | dec => simp [operandCode, Instr.opc, checkOf, key]
  | ark k =>
    have inRange : k.toNat ≤ 10 := of_decide_eq_true wf
    rw [checkOf_ark (Nat.lt_succ_of_le inRange), key]
    simp [operandCode, Instr.opc]
  | rcon k =>
    have inRange : k.toNat ≤ 9 := of_decide_eq_true wf
    rw [checkOf_rcon (Nat.lt_succ_of_le inRange)]
    simp [operandCode, Instr.opc]
  | rotw | subw | ldst | stst | subb | isubb | shr | ishr | mixc | imixc | keyexp =>
    simp [operandCode, Instr.opc, checkOf, noCheck]

theorem firstFailing_eq_fields (w : Word) (s : State) : firstFailing w s =
    if opcField w ∉ assigned then some 1
    else if rsvField w ≠ 0 then some 2
    else if opcField w ≠ 0x38 ∧ opcField w ≠ 0x24 ∧ idxField w ≠ 0 then some 2
    else if (opcField w = 0x38 ∧ 10 < (idxField w).toNat) ∨ (opcField w = 0x24 ∧ 9 < (idxField w).toNat) then some 3
    else operandCode (opcField w) s := rfl

/-- The list of R197 and the model's checks agree, check by check. -/
theorem firstFailing_eq_rejection (w : Word) (s : State) : firstFailing w s = (rejection w s).map ErrName.code := by
  rw [firstFailing_eq_fields]
  cases selected : commandOf (opcField w) (idxField w) with
  | none =>
    rw [if_pos (commandOf_eq_none_iff.mp selected), rejection_of_decode_error (decodeCommand_illegalOpcode selected)]
    rfl
  | some i =>
    have assigned : ¬ opcField w ∉ assigned := fun no => by simp [commandOf_eq_none_iff.mpr no] at selected
    simp only [if_neg assigned, ← idx_ne_iff_of_commandOf selected, ← wf_eq_false_iff_of_commandOf selected]
    by_cases reserved : rsvField w ≠ 0 ∨ i.idx ≠ idxField w
    · rw [rejection_of_decode_error (decodeCommand_reservedField selected reserved)]
      obtain rsv | idx := reserved
      · exact if_pos rsv
      · simp only [if_pos idx, ite_self]; rfl
    obtain ⟨rsv, idx⟩ : rsvField w = 0 ∧ i.idx = idxField w := by simpa using reserved
    cases wf : i.wf with
    | false =>
      rw [rejection_of_decode_error (decodeCommand_indexRange selected rsv idx wf)]
      simp [rsv, idx, ErrName.code]
    | true =>
      rw [rejection_of_decode_ok (decodeCommand_ok selected rsv idx wf), ← operandCode_opc wf,
        opc_of_commandOf selected]
      simp [rsv, idx]

/-- Settles O42: the BUSY check of the bus, and the two outcomes of a word for an idle core. -/
theorem commandChecksRunInOrder : Obligations.CommandChecksRunInOrder := by
  unfold Obligations.CommandChecksRunInOrder
  intro s w
  refine ⟨busyRejects w s, fun c idle fails => ?rejected, fun idle passes => ?accepted⟩
  case rejected =>
    obtain ⟨e, rejects, rfl⟩ := Option.map_eq_some_iff.mp ((firstFailing_eq_rejection w s).symm.trans fails)
    exact hostAccess_write_cmd_of_rejection idle rejects
  case accepted =>
    have noRejection : rejection w s = none :=
      Option.map_eq_none_iff.mp ((firstFailing_eq_rejection w s).symm.trans passes)
    obtain ⟨i, decodes, accepts⟩ := hostAccess_write_cmd_of_no_rejection idle noRejection
    obtain ⟨selected, -, idx, -⟩ := decodeCommand_eq_ok_iff.mp decodes
    exact ⟨i, opc_of_commandOf selected, idx, accepts⟩

end Sys2Proof.Machine
end

section
/-! Error recording and clearing (60_exceptions.md R196, R199, R200): what each turn leaves of the error record, and what a
rejection leaves of everything else. -/

namespace Sys2Proof.Machine

open Sys2Proof.Claims

/-- An error that is not the first since the last clear is not recorded (R196). -/
theorem raiseError_of_err {s : State} (recorded : s.err = true) (e : ErrName) : raiseError e s = s := if_pos recorded

/-- Recording an error changes the error record only (R196). -/
theorem raiseError_frame (e : ErrName) (s : State) :
    raiseError e s = { s with err := true, errCode := (raiseError e s).errCode } := by
  unfold raiseError
  split
  · rename_i recorded
    rw [← recorded]
  · rfl

/-- A write to a register other than STATUS leaves the error record as it is (R61). -/
theorem writeReg_errorRecord {r : RegName} (other : r ≠ .status) (v : Word) (s : State) :
    (writeReg r v s).err = s.err ∧ (writeReg r v s).errCode = s.errCode := by
  cases r with
  | status => exact absurd rfl other
  | key _ | din _ | dout _ | opa | opb | res | cmd | rkw _ => exact ⟨rfl, rfl⟩

/-- The core's turn leaves the error record as it is (R190). -/
theorem coreTurn_errorRecord {s t : State} (h : coreTurn s = .next t) : t.err = s.err ∧ t.errCode = s.errCode := by
  obtain ⟨-, rfl⟩ | ⟨-, i, u, -, effect, rfl⟩ := coreTurn_cases h
  · exact ⟨rfl, rfl⟩
  · obtain ⟨frame, -⟩ := effectOf_frame effect
    rw [frame]
    exact ⟨rfl, rfl⟩

/-- A host access leaves a recorded error as it is, unless it is a STATUS write with bit 3 set (R196, R200). -/
theorem hostAccess_keeps_error {a : Access} {s t : State} (h : hostAccess a s = .next t) (recorded : s.err = true)
    (noClear : ¬ ClearsError (.host a)) : t.err = true ∧ t.errCode = s.errCode := by
  obtain ⟨e, d, rfl⟩ | ⟨r, off, -, -, rfl⟩ | ⟨r, off, v, rfl, hr, -, -, -, rfl⟩ | ⟨off, v, e, -, -, -, rfl⟩ |
    ⟨off, v, i, -, -, -, -, -, rfl⟩ := hostAccess_next_cases h
  · rw [busError, raiseError_of_err recorded]
    exact ⟨recorded, rfl⟩
  · exact ⟨recorded, rfl⟩
  · by_cases status : r = .status
    · obtain rfl := offset_eq_of_regAt hr
      subst status
      have bit : ¬ v.getLsbD 3 = true := fun set => noClear ⟨rfl, rfl, set⟩
      rw [writeReg, writeStatus, if_neg bit]
      exact ⟨recorded, rfl⟩
    · obtain ⟨err, errCode⟩ := writeReg_errorRecord status v s
      exact ⟨err.trans recorded, errCode⟩
  · rw [raiseError_respond, raiseError_of_err recorded]
    exact ⟨recorded, rfl⟩
  · exact ⟨recorded, rfl⟩

/-- Settles O44: by whose turn it is. -/
theorem firstErrorStaysUntilCleared : Obligations.FirstErrorStaysUntilCleared := by
  unfold Obligations.FirstErrorStaysUntilCleared
  intro s t hstep recorded noClear noReset
  obtain ⟨-, turn⟩ | ⟨a, rest, inputs, turn⟩ | ⟨rest, inputs, -⟩ := step_cases s
  · obtain ⟨err, errCode⟩ := coreTurn_errorRecord (turn.symm.trans hstep)
    exact ⟨err.trans recorded, errCode⟩
  · have whose : turnOf s = .host a := by simp [turnOf, inputs]
    exact hostAccess_keeps_error (s := begun s) (turn.symm.trans hstep) recorded (whose ▸ noClear)
  · exact absurd (by simp [turnOf, inputs]) noReset

/-- A CMD write to an idle core gets OKAY, whatever becomes of its word (R199). -/
theorem resp_of_write_cmd_idle {s t : State} {v : Word} (idle : s.busy = false)
    (h : hostAccess (.write (RegName.offset .cmd) 4 v) s = .next t) : t.resp = some ⟨.okay, none⟩ := by
  obtain ⟨u, presented, resp⟩ := presentCommand_idle_resp (s := respond .okay none s) v idle
  cases ((hostAccess_write_cmd_idle v idle).trans presented).symm.trans h
  exact resp

/-- An access that gets ERROR, and a CMD write that leaves BUSY as it is, record an error and change nothing else (R199):
of the cases of a host access these are the bus's errors and the rejected words. -/
theorem rejection_frame {a : Access} {s t : State} (h : hostAccess a s = .next t)
    (rejected : (∃ d, t.resp = some ⟨.error, d⟩) ∨ ∃ v, a = .write 0x040 4 v ∧ t.busy = s.busy) :
    t = { s with err := t.err, errCode := t.errCode, resp := t.resp } ∧ t.err = true := by
  obtain ⟨e, d, rfl⟩ | ⟨r, off, rfl, -, rfl⟩ | ⟨r, off, v, rfl, hr, noCmd, -, -, rfl⟩ | ⟨off, v, e, -, -, -, rfl⟩ |
    ⟨off, v, i, -, -, idle, -, -, rfl⟩ := hostAccess_next_cases h
  · rw [busError, raiseError_frame]
    exact ⟨rfl, rfl⟩
  · obtain ⟨d, error⟩ | ⟨v, write, -⟩ := rejected
    · cases error
    · cases write
  · obtain ⟨d, error⟩ | ⟨v', write, -⟩ := rejected
    · cases error
    · cases write
      exact absurd (Option.some.inj (hr.symm.trans (regAt_offset .cmd))) noCmd
  · rw [raiseError_frame]
    exact ⟨rfl, rfl⟩
  · obtain ⟨d, error⟩ | ⟨v', -, stillIdle⟩ := rejected
    · cases error
    · exact absurd (stillIdle.trans idle) nofun

/-- Settles O43: the frame of a rejection, and the response to a CMD write. -/
theorem rejectionIsPrecise : Obligations.RejectionIsPrecise := by
  unfold Obligations.RejectionIsPrecise
  intro s t a h rejected
  obtain ⟨frame, err⟩ := rejection_frame h rejected
  refine ⟨frame, err, ?okay⟩
  rintro v rfl idle
  exact resp_of_write_cmd_idle idle h

end Sys2Proof.Machine
end

section
/-! What errors depend on (60_exceptions.md R195): every operation of a host access takes states with equal error views to
states with equal error views, and the bus response depends on nothing else. -/

namespace Sys2Proof.Machine

section
variable {s s' : State} (same : errorView s = errorView s')
include same

theorem errorView_raiseError_congr (e : ErrName) : errorView (raiseError e s) = errorView (raiseError e s') := by
  have err : s.err = s'.err := congrArg ErrorView.err same
  unfold raiseError
  rw [err]
  split
  · exact same
  · exact congrArg (fun view => { view with err := true, errCode := e.code }) same

theorem errorView_writeStatus_congr (v : Word) : errorView (writeStatus v s) = errorView (writeStatus v s') := by
  unfold writeStatus
  split
  · exact congrArg (fun view => { view with err := false, errCode := 0 }) same
  · exact same

/-- A register write: KEY_VALID, an operand's high bits or the error record change alike, the rest stays. -/
theorem errorView_writeReg_congr (r : RegName) (v : Word) : errorView (writeReg r v s) = errorView (writeReg r v s') := by
  cases r with
  | key _ => exact congrArg (fun view => { view with keyValid := false }) same
  | opa => exact congrArg (fun view => { view with opaHigh := v.extractLsb' 8 24 }) same
  | opb => exact congrArg (fun view => { view with opbHigh := v.extractLsb' 8 24 }) same
  | status => exact errorView_writeStatus_congr same v
  | din _ | dout _ | res | cmd | rkw _ => exact same

theorem errorView_accept_congr (i : Instr) : errorView (accept i s) = errorView (accept i s') :=
  congrArg (fun view => { view with busy := true }) same

end

/-- The host sees the same of the two states where errors are concerned. -/
def SameErrors (t t' : State) : Prop :=
  errorView t = errorView t' ∧ t.resp.map BusResp.kind = t'.resp.map BusResp.kind

section
variable {s s' : State} (same : errorView s = errorView s')
include same

/-- A read gets the same kind of response from both states. -/
theorem read_sameErrors (off : BitVec 9) (n : Nat) :
    ∃ t t', hostAccess (.read off n) s = .next t ∧ hostAccess (.read off n) s' = .next t' ∧ SameErrors t t' := by
  cases reached : accessed off n with
  | none =>
    exact ⟨_, _, hostAccess_read_badAccess reached, hostAccess_read_badAccess reached,
      errorView_raiseError_congr same .badAccess, rfl⟩
  | some r =>
    obtain ⟨rfl, rfl⟩ := of_accessed_eq_some reached
    exact ⟨_, _, hostAccess_read_offset r s, hostAccess_read_offset r s', same, rfl⟩

/-- A CMD write to two idle cores is rejected by both with the same error, or accepted by both. -/
theorem write_cmd_sameErrors (idle : s.busy = false) (v : Word) :
    ∃ t t', hostAccess (.write (RegName.offset .cmd) 4 v) s = .next t ∧
      hostAccess (.write (RegName.offset .cmd) 4 v) s' = .next t' ∧ SameErrors t t' := by
  have idle' : s'.busy = false := (congrArg ErrorView.busy same).symm.trans idle
  cases rejects : rejection v s with
  | some e =>
    exact ⟨_, _, hostAccess_write_cmd_of_rejection idle rejects,
      hostAccess_write_cmd_of_rejection idle' ((rejection_congr same v).symm.trans rejects),
      errorView_raiseError_congr same e, rfl⟩
  | none =>
    obtain ⟨i, decodes, accepts⟩ := hostAccess_write_cmd_of_no_rejection idle rejects
    obtain ⟨i', decodes', accepts'⟩ :=
      hostAccess_write_cmd_of_no_rejection idle' ((rejection_congr same v).symm.trans rejects)
    cases decodes.symm.trans decodes'
    exact ⟨_, _, accepts, accepts', errorView_accept_congr same i, rfl⟩

/-- A write, by the bus checks in their order (R57). -/
theorem write_sameErrors (off : BitVec 9) (n : Nat) (v : Word) :
    ∃ t t', hostAccess (.write off n v) s = .next t ∧ hostAccess (.write off n v) s' = .next t' ∧ SameErrors t t' := by
  have busy : s.busy = s'.busy := congrArg ErrorView.busy same
  cases reached : accessed off n with
  | none =>
    exact ⟨_, _, hostAccess_write_badAccess reached v, hostAccess_write_badAccess reached v,
      errorView_raiseError_congr same .badAccess, rfl⟩
  | some r =>
    obtain ⟨rfl, rfl⟩ := of_accessed_eq_some reached
    by_cases hro : readOnly r = true
    · exact ⟨_, _, hostAccess_write_readOnly hro v, hostAccess_write_readOnly hro v,
        errorView_raiseError_congr same .badAccess, rfl⟩
    rw [Bool.not_eq_true] at hro
    by_cases locked : lockedWhileBusy r = true ∧ s.busy = true
    · obtain ⟨hl, hb⟩ := locked
      exact ⟨_, _, hostAccess_write_locked hro hl hb v, hostAccess_write_locked hro hl (busy ▸ hb) v,
        errorView_raiseError_congr same .busy, rfl⟩
    have passes : lockedWhileBusy r = true → s.busy = false := by simpa using locked
    by_cases hcmd : r = .cmd
    · subst hcmd
      exact write_cmd_sameErrors same (passes rfl) v
    · exact ⟨_, _, hostAccess_write_register hro passes hcmd v, hostAccess_write_register hro (busy ▸ passes) hcmd v,
        errorView_writeReg_congr same r v, rfl⟩

end

/-- Settles O45: a read and a write each keep the error views equal. -/
theorem errorsDependOnStatusAndOperandsOnly : Obligations.ErrorsDependOnStatusAndOperandsOnly := by
  unfold Obligations.ErrorsDependOnStatusAndOperandsOnly
  intro s s' t t' a same next next'
  obtain ⟨u, u', h, h', view, kind⟩ :
      ∃ u u', hostAccess a s = .next u ∧ hostAccess a s' = .next u' ∧ SameErrors u u' := by
    cases a with
    | read off n => exact read_sameErrors same off n
    | write off n v => exact write_sameErrors same off n v
  cases h.symm.trans next
  cases h'.symm.trans next'
  obtain ⟨busy, -, -, -, err, errCode⟩ := ErrorView.mk.inj view
  exact ⟨err, errCode, busy, kind⟩

end Sys2Proof.Machine
end

section
/-! Progress (60_exceptions.md R190, R202, R212): no step from a state that meets the invariant stops, and a busy command
completes in the core's turn, which comes after finitely many turns of the host. -/

namespace Sys2Proof.Machine

open Sys2Proof.Claims

/-- In the core's turn a command that passed its checks completes (R211). -/
theorem coreTurn_completes {s : State} {i : Instr} (busy : s.busy = true) (pend : s.pend = some i)
    (passes : Accepted i s) : ∃ u, coreTurn s = .next u ∧ u.pend = none ∧ u.busy = false ∧ u.done = true := by
  obtain ⟨v, effect⟩ := effectOf_next_of_accepted passes
  exact ⟨retire v, coreTurn_complete busy pend effect, rfl, rfl, rfl⟩

/-- The core's turn never stops from a state that meets the invariant, and a busy core is idle after it (R211). -/
theorem State.Inv.coreTurn_next {s : State} (inv : s.Inv) :
    ∃ t, coreTurn s = .next t ∧ (s.busy = true → t.busy = false ∧ t.done = true) := by
  cases busy : s.busy with
  | false => exact ⟨s, coreTurn_idle busy, nofun⟩
  | true =>
    obtain ⟨i, pend⟩ := Option.ne_none_iff_exists'.mp (inv.busyIffPend.mp busy)
    obtain ⟨t, completes, -, idle, done⟩ := coreTurn_completes busy pend (inv.pendAccepted i pend)
    exact ⟨t, completes, fun _ => ⟨idle, done⟩⟩

/-- A host access never stops (R57). -/
theorem hostAccess_next (a : Access) (s : State) : ∃ t, hostAccess a s = .next t := by
  obtain ⟨t, -, -, next, -⟩ := errorResponseExactlyInErrorCases s a
  exact ⟨t, next⟩

/-- Settles O50: by whose turn it is. -/
theorem coreNeverGetsStuck : Obligations.CoreNeverGetsStuck := by
  unfold Obligations.CoreNeverGetsStuck
  intro s inv
  obtain ⟨-, turn⟩ | ⟨a, rest, inputs, turn⟩ | ⟨rest, inputs, turn⟩ := step_cases s
  · obtain ⟨t, next, completes⟩ := inv.begun.coreTurn_next
    refine ⟨t, turn.trans next, fun _ busy => ?_⟩
    obtain ⟨idle, done⟩ := completes busy
    exact ⟨idle, done, coreTurn_errorRecord (s := begun s) next⟩
  · obtain ⟨t, next⟩ := hostAccess_next a (begun s)
    exact ⟨t, turn.trans next, fun core => by simp [turnOf, inputs] at core⟩
  · exact ⟨_, turn, fun core => by simp [turnOf, inputs] at core⟩

/-- Turns to come without a reset are host accesses up to the core's turn, or to the end. -/
theorem exists_accesses_before_core {turns : List Turn} (noReset : .reset ∉ turns) :
    ∃ (accesses : List Access) (rest : List Turn), turns = accesses.map .host ++ rest ∧ rest.headD .core = .core := by
  induction turns with
  | nil => exact ⟨[], [], rfl, rfl⟩
  | cons turn turns ih =>
    cases turn with
    | host a =>
      obtain ⟨accesses, rest, rfl, core⟩ := ih (List.not_mem_of_not_mem_cons noReset)
      exact ⟨a :: accesses, rest, rfl, core⟩
    | core => exact ⟨[], .core :: turns, rfl, rfl⟩
    | reset => simp at noReset

/-- The core's turn is its turn from the state in which the turn is used up. -/
theorem step_of_turnOf_core {s : State} (core : turnOf s = .core) : step s = coreTurn (begun s) := by
  obtain ⟨-, turn⟩ | ⟨a, rest, inputs, -⟩ | ⟨rest, inputs, -⟩ := step_cases s
  · exact turn
  · simp [turnOf, inputs] at core
  · simp [turnOf, inputs] at core

/-- Settles O51: the host's accesses before the core's turn keep the command as it is, and the turn completes it. -/
theorem acceptedCommandCompletes : Obligations.AcceptedCommandCompletes := by
  unfold Obligations.AcceptedCommandCompletes
  intro s i inv pend noReset
  have busy : s.busy = true := inv.busyIffPend.mpr (by simp [pend])
  obtain ⟨accesses, rest, inputs, core⟩ :=
    exists_accesses_before_core (turns := s.inputs) (by simpa [State.resetComing] using noReset)
  obtain ⟨t, run, same, inputsT⟩ := runSteps_busy_hostAccesses busy inputs
  have busyT : t.busy = true := (congrArg State.busy same :).trans busy
  have pendT : t.pend = some i := (congrArg State.pend same :).trans pend
  have coreT : turnOf t = .core := by rw [turnOf, inputsT, core]
  have passes : Accepted i (begun t) :=
    accepted_dataView.mp (same ▸ accepted_dataView.mpr (inv.pendAccepted i pend) : Accepted i (dataView t))
  obtain ⟨u, completes, pendU, idleU, doneU⟩ := coreTurn_completes (s := begun t) busyT pendT passes
  exact ⟨accesses.length, by simp [inputs], t, u, run, busyT, pendT, coreT, (step_of_turnOf_core coreT).trans completes,
    pendU, idleU, doneU⟩

end Sys2Proof.Machine
end
